-- ==== Sys2Proof/Word.lean ====
section
/-! DEFINITION. The word types of the block: every latch, bus value and table word the spec calls 32 bits wide
(00_scope.md R6: `XLEN`, `BUSW`) is a `Word`; the FIFO ports enqueue `Byte`s. -/

namespace Sys2Proof

/-- A 32-bit unsigned value (R6: `XLEN` = `BUSW` = 32; R170: no value is signed). -/
abbrev Word := BitVec 32

/-- A byte of the FIFO byte stream (20_memory.md R40). -/
abbrev Byte := BitVec 8

end Sys2Proof
end

