-- ==== Sys2Proof/Config.lean ====
section
/-! DEFINITION. The parameters of a run (00_scope.md R6) and the free values: what the spec leaves OPEN or gives no
value is a constant without a body, so that nothing can be proved about the value it has. -/

namespace Sys2Proof

/-- `PAD_POLICY` (R6, R84): what the block drives on the data bits above a remainder. -/
inductive PadPolicy where
  | draw
  | zero
  | passthrough
  deriving DecidableEq, Repr

/-- The parameters that stay fixed for a whole run (R6, R18). They are arguments of the model: a state carries them so
that a claim can quantify over them, and no step changes them. -/
structure Params where
  /-- `BASE` is four times this number: it is a multiple of 4 and `BASE + 0x1C < 2^32` (R41, R43), by its type. -/
  baseIndex : Fin 1073741817
  /-- `MAX_ITER` (R6, R18). -/
  maxIter : Word
  /-- `CHAIN_UNDEFINED` is 4 plus this number: any 32-bit value of 4 or more (R6). -/
  undefinedOver : Fin 4294967292
  /-- `PAD_POLICY` (R6). -/
  padPolicy : PadPolicy
  deriving DecidableEq, Repr

namespace Config

/-- OPEN (R6): where `BASE` lies. -/
opaque baseIndex : Fin 1073741817

/-- OPEN (R6): `MAX_ITER`. -/
opaque maxIter : Word

/-- OPEN (R6): which value the "undefined" sentinel has. -/
opaque undefinedOver : Fin 4294967292

/-- FREE VALUE (20_memory.md R50, R51): the answer to the n-th status read, where the environment's answers have not
been given. -/
opaque statusWord : Nat → Word

/-- FREE VALUE (30_encoding.md R84): the n-th draw; a remainder write takes its pad bits from it. -/
opaque padDraw : Nat → Word

/-- FREE VALUE: `BUDGET - 1` at `BUDGET = 0`, which the spec gives no value (43_arithmetic_and_sequencing.md R174). -/
opaque budgetBelowZero : Word

/-- FREE VALUE: `WCNT - 1` at `WCNT = 0`, which the spec gives no value (R174). -/
opaque wcntBelowZero : BitVec 3

/-- FREE VALUE: `hdr(L)` for an `L` outside 1 to 128, which the spec gives no value (30_encoding.md R75). -/
opaque headerOutside : BitVec 8 → BitVec 16

/-- FREE VALUE: `en(c)` for a `c` above 3, which the spec gives no value (30_encoding.md R72). -/
opaque enOutside : Word → Word

/-- The parameters of the run that starts at reset: the OPEN ones left open, `PAD_POLICY` the value R6 gives. -/
def params : Params :=
  { baseIndex := baseIndex, maxIter := maxIter, undefinedOver := undefinedOver, padPolicy := .draw }

end Config

end Sys2Proof
end

