-- ==== Sys2Proof/Syntax.lean ====
section
/-! DEFINITION. The operations of the block, one constructor for each row of the opcode table (30_encoding.md R79), and
the formats they are selected by (R70, R78). -/

namespace Sys2Proof

/-- The operations (00_scope.md R8: host commands, sequencer operations, bus operations) and the header pattern. -/
inductive Instr where
  /-- `IS_IDLE`, host command (41_status_monitor.md R117). -/
  | isIdle (maxIterations : Word)
  /-- `PROGRAM_CHAIN`, host command (42_chain_programmer.md R130); the table comes with it (10_state.md R24). -/
  | programChain (chainId lengthInBits tableLen : Word) (table : List Word)
  /-- `VALIDATE` (R131). -/
  | validate
  /-- `SELECT` (R132). -/
  | select
  /-- `PLAN` (R133). -/
  | plan
  /-- `CHUNK` (R135). -/
  | chunk
  /-- `CHECK` (R112). -/
  | check
  /-- `POLL` (R113). -/
  | poll
  /-- `HDR` (R138). -/
  | hdr
  /-- `DATAW` (R139). -/
  | dataw
  /-- `REMW` (R141). -/
  | remw
  /-- `RD_STAT` (40_bus_ops.md R101). -/
  | rdStat
  /-- `WR_EN` (R102). -/
  | wrEn (v : Word)
  /-- `WR_FIFO1` (R103). -/
  | wrFifo1 (v : Word)
  /-- `WR_FIFO2` (R104). -/
  | wrFifo2 (v : Word)
  /-- `WR_FIFO4` (R105). -/
  | wrFifo4 (v : Word)
  /-- `TDI_TDO_HDR`, the header value with length field `lenm1` (30_encoding.md R74). -/
  | tdiTdoHdr (lenm1 : BitVec 7)
  deriving DecidableEq, Repr

/-- A host command as the host interface carries it: a record, not a packed word (R76). A field that is absent for the
command is ignored. -/
structure CmdRecord where
  op : BitVec 1
  maxIterations : Word
  chainId : Word
  lengthInBits : Word
  tableLen : Word
  table : List Word
  deriving DecidableEq, Repr

/-- An operation in the format that selects it (R78): a command record, the 4-bit value of `PHASE`, a 9-bit bus key
`dir ++ offset` with its bus data, or a 16-bit header value. -/
inductive Encoded where
  | cmd (r : CmdRecord)
  | seq (key : BitVec 4)
  | bus (key : BitVec 9) (data : Word)
  | hdr16 (v : BitVec 16)
  deriving DecidableEq, Repr

/-- Why a key selects no operation. -/
inductive DecodeError where
  /-- `PHASE = 0` is `READY`: the block waits for a command there (R78, 43_arithmetic_and_sequencing.md R176). -/
  | readyIsNoOperation
  /-- `PHASE` 10 to 15 are never taken (R78, R80). -/
  | unreachablePhase (key : BitVec 4)
  /-- An access the document does not describe (20_memory.md R52, R80). -/
  | undescribedAccess (key : BitVec 9)
  /-- A 16-bit value that is no scan-chain program header (R74, R80). -/
  | notAHeader (v : BitVec 16)
  deriving DecidableEq, Repr

end Sys2Proof
end

