-- ==== Sys2Proof/Machine/State.lean ====
section
/-! DEFINITION. The state of the machine (10_state.md R10 to R30), the reasons a step can stop, and the state after
reset (R28, 70_reset_and_hazards.md R240). -/

namespace Sys2Proof.Machine

/-- `PHASE`, the sequencer position (R14); its 4-bit codes are `Phase.code` (30_encoding.md R78). -/
inductive Phase where
  | ready
  | validate
  | select
  | plan
  | nextChunk
  | monStart
  | monRead
  | hdr
  | data
  | remw
  deriving DecidableEq, Repr

/-- `POLL`, the monitor's state (R15). -/
inductive PollState where
  | polling
  | idle
  | timedOut
  deriving DecidableEq, Repr

/-- `RESULT` (R17); its codes are `ResultCode.code` (30_encoding.md R77). -/
inductive ResultCode where
  | ok
  | engineTimeout
  | invalidInput
  | none
  deriving DecidableEq, Repr

/-- `VERDICT` (R17); its codes are `Verdict.code` (R77). -/
inductive Verdict where
  | idle
  | active
  deriving DecidableEq, Repr

/-- The two error kinds a command can end with (60_exceptions.md R200). -/
inductive ErrorKind where
  | engineTimeout
  | invalidInput
  deriving DecidableEq, Repr

/-- The five registers of the scan-manager block (10_state.md R19 to R23). -/
inductive Reg where
  | stat
  | en
  | fifo1
  | fifo2
  | fifo4
  deriving DecidableEq, Repr

/-- The direction of a bus operation (30_encoding.md R78). -/
inductive Dir where
  | read
  | write
  deriving DecidableEq, Repr

/-- One bus operation of the trace: `(R, offset, value returned)` or `(W, offset, value written)`
(20_memory.md R49). -/
structure BusEvent where
  dir : Dir
  offset : BitVec 8
  value : Word
  deriving DecidableEq, Repr

/-- The table space (20_memory.md R40): cells of byte address and byte, addresses strictly rising; word `i` of the
table is the bytes at `4i` to `4i + 3`. An address that is not listed has no value (log 8, log 9). -/
abbrev Memory := List Host.Cell

/-- The canonical form: addresses strictly rising. An unlisted address reads as nothing, so no entry can equal what it
would read as if it were not listed. -/
abbrev Memory.wf (m : Memory) : Prop := m.Pairwise (fun x y => x.1 < y.1)

/-- Everything the spec gives the machine, as plain data. -/
structure State where
  /-- `OP` (R11): 0 = `IS_IDLE`, 1 = `PROGRAM_CHAIN`. -/
  op : BitVec 1
  /-- `CHAIN_ID` (R11). -/
  chainId : Word
  /-- `LEN` (R11). -/
  len : Word
  /-- `TABLE_LEN` (R11). -/
  tableLen : Word
  /-- `MAXI` (R11). -/
  maxi : Word
  /-- `FULL_LEFT` (R12). -/
  fullLeft : Word
  /-- `RES` (R12). -/
  res : BitVec 7
  /-- `IDX` (R12). -/
  idx : Word
  /-- `CUR_L` (R12). -/
  curL : BitVec 8
  /-- `WCNT` (R12). -/
  wcnt : BitVec 3
  /-- `REM` (R12). -/
  rem : BitVec 5
  /-- `BUDGET` (R13). -/
  budget : Word
  /-- `PHASE` (R14). -/
  phase : Phase
  /-- `POLL` (R15). -/
  poll : PollState
  /-- `RESULT` (R17). -/
  result : ResultCode
  /-- `VERDICT` (R17). -/
  verdict : Verdict
  /-- The parameters of the run (R6, R18); no step changes them. -/
  params : Params
  /-- The table space, supplied by the host with a command (R24). -/
  table : Memory
  /-- The bus operations issued since reset, oldest first (20_memory.md R49). -/
  trace : List BusEvent
  /-- Environment: what `EN` was last written with (R20). -/
  en : Word
  /-- Environment: the answers to the next status reads, first one first (20_memory.md R51). -/
  answers : List Word
  /-- The MODEL's own (log 5): how many status reads have been made. -/
  reads : Nat
  /-- The MODEL's own (log 6): how many remainder draws have been made. -/
  draws : Nat
  /-- Environment: the bus access the block is about to make does not complete (R58). -/
  busHeld : Bool
  /-- Host: commands offered and not yet accepted, first one first (43_arithmetic_and_sequencing.md R176). -/
  offers : List CmdRecord
  /-- Host: the reset input (70_reset_and_hazards.md R240, R241). -/
  resetRequest : Bool
  /-- The MODEL's own (log 11): an operation placed from outside, to be run by the next step. -/
  placed : Option Encoded
  deriving DecidableEq, Repr

/-- Why a step can stop with a fault. Neither can happen from a state that meets `Safety.Inv`. -/
inductive Fault where
  /-- Raised by `DATAW` and `REMW` when `IDX >= TABLE_LEN`: `TblRead(i)` has a meaning for `0 <= i < TABLE_LEN` only
  (00_scope.md R7). Safe: the model stops where the spec gives no meaning. -/
  | tableIndexOutside (i : Nat)
  /-- Raised by `DATAW` and `REMW` when the host supplied no such word although `TABLE_LEN` says it did (10_state.md
  R24, 20_memory.md R53). Safe: the model stops where the spec gives no meaning. -/
  | tableWordNotSupplied (i : Nat)
  deriving DecidableEq, Repr

/-- Why a step can answer with a refusal. -/
inductive Refusal where
  /-- Raised by `exec` for an operation that has no meaning yet. Safe. No arm of this model raises it. -/
  | notModelled (mnemonic : String)
  /-- Raised by `step` for a placed key that no row of the operation table has (30_encoding.md R80, 20_memory.md R52).
  Safe: such a key selects nothing. -/
  | undecodable (e : DecodeError)
  /-- Raised by `step` for an operation placed from outside while `PHASE != READY`: another master at the register block
  during a command, a run that is outside the spec (20_memory.md R54). Safe: nothing is said of such a run. -/
  | ownershipBroken (i : Instr)
  deriving DecidableEq, Repr

/-- The machine right after reset (R28, R240): `PHASE = READY`, `RESULT = NONE`, an empty trace. The latches R28 leaves
unspecified hold the values of log 1, `EN` that of log 2; the parameters are not reset (log 3). -/
def State.reset : State where
  op := 0
  chainId := 0
  len := 0
  tableLen := 0
  maxi := 0
  fullLeft := 0
  res := 0
  idx := 0
  curL := 0
  wcnt := 0
  rem := 0
  budget := 0
  phase := .ready
  poll := .polling
  result := .none
  verdict := .idle
  params := Config.params
  table := []
  trace := []
  en := 0
  answers := []
  reads := 0
  draws := 0
  busHeld := false
  offers := []
  resetRequest := false
  placed := none

end Sys2Proof.Machine
end

