-- ==== Sys2Proof/Machine/Flags.lean ====
section
/-! DEFINITION. The transient condition values of the block (10_state.md R16): the fields of a status word and the
`DECODE` function (41_status_monitor.md R111). Nothing else in the block is a flag. -/

namespace Sys2Proof.Machine

/-- `active = s[31]` (R71, R111). -/
def active (s : Word) : BitVec 1 := s.extractLsb' 31 1

/-- `wfifocnt = s[30:28]` (R71, R111). -/
def wfifocnt (s : Word) : BitVec 3 := s.extractLsb' 28 3

/-- `busy(s) = (active = 1) or (wfifocnt > 0)` (R111). -/
def busy (s : Word) : Bool := active s == 1#1 || decide (wfifocnt s > 0#3)

end Sys2Proof.Machine
end

