-- ==== Sys2Proof/WellFormed.lean ====
section
/-! DEFINITION. Which operations are well formed: the conditions the spec puts on an operation's own fields. -/

namespace Sys2Proof

/-- The four values `EN` is ever written with (30_encoding.md R72). -/
def enableValues : List Word := [0x00000001#32, 0x00000002#32, 0x00000004#32, 0x00000008#32]

/-- An operation is well formed when its fields agree with each other: a `PROGRAM_CHAIN` carries as many words as its
`table_len` says (10_state.md R11, R24), and a `WR_EN` carries a one-hot chain enable (R72). Every value of every other
field is legal (R76, 40_bus_ops.md R105). -/
def Instr.wellFormed : Instr → Bool
  | .isIdle _ => true
  | .programChain _ _ tableLen table => table.length == tableLen.toNat
  | .validate => true
  | .select => true
  | .plan => true
  | .chunk => true
  | .check => true
  | .poll => true
  | .hdr => true
  | .dataw => true
  | .remw => true
  | .rdStat => true
  | .wrEn v => enableValues.contains v
  | .wrFifo1 _ => true
  | .wrFifo2 _ => true
  | .wrFifo4 _ => true
  | .tdiTdoHdr _ => true

end Sys2Proof
end

