-- ==== Sys2Proof/Decode.lean ====
section
/-! DEFINITION. Decoding: from a key in one of the four formats (30_encoding.md R78) to the operation it selects, or a
named reason why it selects none; and the encoder, written from the same table (R79). -/

namespace Sys2Proof

/-- The command a record stands for (R76): `op = 0` is `IS_IDLE`, `op = 1` is `PROGRAM_CHAIN`; no value is reserved
(R80). -/
def decodeCmd (r : CmdRecord) : Instr :=
  if r.op = 0#1 then .isIdle r.maxIterations
  else .programChain r.chainId r.lengthInBits r.tableLen r.table

/-- The sequencer operation that a value of `PHASE` selects (R78). -/
def decodeSeq (key : BitVec 4) : Except DecodeError Instr :=
  if key = 0#4 then .error .readyIsNoOperation
  else if key = 1#4 then .ok .validate
  else if key = 2#4 then .ok .select
  else if key = 3#4 then .ok .plan
  else if key = 4#4 then .ok .chunk
  else if key = 5#4 then .ok .check
  else if key = 6#4 then .ok .poll
  else if key = 7#4 then .ok .hdr
  else if key = 8#4 then .ok .dataw
  else if key = 9#4 then .ok .remw
  else .error (.unreachablePhase key)

/-- The bus operation that a key `dir ++ offset` selects (R78, R79); a read carries no data, so `RD_STAT` ignores it. -/
def decodeBus (key : BitVec 9) (data : Word) : Except DecodeError Instr :=
  if key = 0x000#9 then .ok .rdStat
  else if key = 0x104#9 then .ok (.wrEn data)
  else if key = 0x110#9 then .ok (.wrFifo1 data)
  else if key = 0x114#9 then .ok (.wrFifo2 data)
  else if key = 0x11C#9 then .ok (.wrFifo4 data)
  else .error (.undescribedAccess key)

/-- A 16-bit value read as a header (R74): 0x0080 under mask 0x80FF, the length field in bits 14:8. -/
def decodeHdr16 (v : BitVec 16) : Except DecodeError Instr :=
  if v &&& 0x80FF#16 = 0x0080#16 then .ok (.tdiTdoHdr (v.extractLsb' 8 7))
  else .error (.notAHeader v)

/-- The decoder (R78): total, and it rejects by name. -/
def decode : Encoded → Except DecodeError Instr
  | .cmd r => .ok (decodeCmd r)
  | .seq key => decodeSeq key
  | .bus key data => decodeBus key data
  | .hdr16 v => decodeHdr16 v

/-- The header value with length field `lenm1` (R74): `0 ++ lenm1 ++ 10000000`. -/
def headerValue (lenm1 : BitVec 7) : BitVec 16 :=
  0x0080#16 ||| (lenm1.setWidth 16 <<< 8)

/-- The encoder: the key of each operation as the table gives it (R79). The record fields a command does not have are
written 0 (R76); a read's data too. -/
def encode : Instr → Encoded
  | .isIdle m => .cmd { op := 0#1, maxIterations := m, chainId := 0, lengthInBits := 0, tableLen := 0, table := [] }
  | .programChain c l n t =>
      .cmd { op := 1#1, maxIterations := 0, chainId := c, lengthInBits := l, tableLen := n, table := t }
  | .validate => .seq 1#4
  | .select => .seq 2#4
  | .plan => .seq 3#4
  | .chunk => .seq 4#4
  | .check => .seq 5#4
  | .poll => .seq 6#4
  | .hdr => .seq 7#4
  | .dataw => .seq 8#4
  | .remw => .seq 9#4
  | .rdStat => .bus 0x000#9 0
  | .wrEn v => .bus 0x104#9 v
  | .wrFifo1 v => .bus 0x110#9 v
  | .wrFifo2 v => .bus 0x114#9 v
  | .wrFifo4 v => .bus 0x11C#9 v
  | .tdiTdoHdr l => .hdr16 (headerValue l)

/-- The format of a table row's bits. The four formats have key spaces of their own, so bits alone do not name the
format: the number of bits does (1 `CMD`, 4 `SEQ`, 9 `BUS`, 16 `HDR16`), and where the number is rounded up to whole
bytes the value does, except that 8 bits of value 1 are both `PROGRAM_CHAIN` and `VALIDATE`: they are read as the
command (log 13). Every record field and all bus data are 0. -/
def encodedOfTableWord (nbits w : Nat) : Option Encoded :=
  let command (op : BitVec 1) : Encoded :=
    .cmd { op := op, maxIterations := 0, chainId := 0, lengthInBits := 0, tableLen := 0, table := [] }
  if nbits ≤ 1 then (if w < 2 then some (command (BitVec.ofNat 1 w)) else none)
  else if nbits ≤ 4 then (if w < 16 then some (.seq (BitVec.ofNat 4 w)) else none)
  else if nbits ≤ 8 then
    (if w < 2 then some (command (BitVec.ofNat 1 w))
     else if w < 16 then some (.seq (BitVec.ofNat 4 w)) else none)
  else if nbits ≤ 9 then (if w < 512 then some (.bus (BitVec.ofNat 9 w) 0) else none)
  else if nbits ≤ 16 then
    (if w < 65536 then
      (if BitVec.ofNat 16 w &&& 0x80FF#16 = 0x0080#16 then some (.hdr16 (BitVec.ofNat 16 w))
       else if w < 512 then some (.bus (BitVec.ofNat 9 w) 0)
       else some (.hdr16 (BitVec.ofNat 16 w)))
     else none)
  else none

/-- The operation the decoder reads from a table row's bits. -/
def decodeTableWord (nbits w : Nat) : Option Instr :=
  match encodedOfTableWord nbits w with
  | none => none
  | some e =>
    match decode e with
    | .ok i => some i
    | .error _ => none

end Sys2Proof
end

