-- ==== Sys2Proof/Machine/Operands.lean ====
section
/-! DEFINITION. The block's arithmetic and operand forms (43_arithmetic_and_sequencing.md R170 to R175), the codes of
its named values (30_encoding.md R77, R78), and the layout of the register block (10_state.md R19 to R23). -/

namespace Sys2Proof.Machine

/-- The offset of a register from `BASE` (20_memory.md R41). -/
def Reg.offset : Reg → BitVec 8
  | .stat => 0x00#8
  | .en => 0x04#8
  | .fifo1 => 0x10#8
  | .fifo2 => 0x14#8
  | .fifo4 => 0x1C#8

/-- `BASE` (R6, R41). -/
def Params.base (p : Params) : Word := BitVec.ofNat 32 (4 * p.baseIndex.val)

/-- `CHAIN_UNDEFINED` (R6): 4 or more. -/
def Params.chainUndefined (p : Params) : Word := BitVec.ofNat 32 (4 + p.undefinedOver.val)

/-- The bus address of an offset: `BASE + offset` in 32-bit unsigned arithmetic (R41). -/
def busAddress (p : Params) (offset : BitVec 8) : Word := Params.base p + offset.setWidth 32

/-- The 4-bit value of `PHASE` (R78). -/
def Phase.code : Phase → BitVec 4
  | .ready => 0#4
  | .validate => 1#4
  | .select => 2#4
  | .plan => 3#4
  | .nextChunk => 4#4
  | .monStart => 5#4
  | .monRead => 6#4
  | .hdr => 7#4
  | .data => 8#4
  | .remw => 9#4

/-- The phase with a 4-bit value; 10 to 15 are never taken (R78). -/
def Phase.ofCode (k : BitVec 4) : Option Phase :=
  [Phase.ready, .validate, .select, .plan, .nextChunk, .monStart, .monRead, .hdr, .data, .remw][k.toNat]?

/-- The 2-bit code of `RESULT` (R77). -/
def ResultCode.code : ResultCode → BitVec 2
  | .ok => 0#2
  | .engineTimeout => 1#2
  | .invalidInput => 2#2
  | .none => 3#2

/-- The 1-bit code of `VERDICT` (R77). -/
def Verdict.code : Verdict → BitVec 1
  | .idle => 0#1
  | .active => 1#1

/-- The result an error is reported with (60_exceptions.md R201, R202). -/
def ErrorKind.result : ErrorKind → ResultCode
  | .engineTimeout => .engineTimeout
  | .invalidInput => .invalidInput

/-- `ceil32(n) = (n >> 5) + (1 if n[4:0] != 0 else 0)` (00_scope.md R7, R175). -/
def ceil32 (n : Word) : Word :=
  (n >>> 5) + (if n.extractLsb' 0 5 = 0#5 then 0#32 else 1#32)

/-- Full 128-bit chunks of a length: `LEN >> 7` (R133, R171). -/
def fullChunksOf (len : Word) : Word := len >>> 7

/-- Residual bits of a length: `LEN & 0x7F`, that is `LEN[6:0]` (R133, R171). -/
def residualOf (len : Word) : BitVec 7 := len.extractLsb' 0 7

/-- Whole words of a chunk: `L >> 5` (R138, R171). -/
def wordsOf (curL : BitVec 8) : BitVec 3 := curL.extractLsb' 5 3

/-- Remainder bits of a chunk: `L & 0x1F`, that is `L[4:0]` (R138, R171). -/
def remainderOf (curL : BitVec 8) : BitVec 5 := curL.extractLsb' 0 5

/-- `en(c) = zext_32(1 << c)` for the chain identifiers 0 to 3 (R72, R172); outside them a free value (log 7). -/
def enableValue (c : Word) : Word :=
  if c ≤ 3#32 then 1#32 <<< c.toNat else Config.enOutside c

/-- `hdr(L) = 0x0080 | ((L - 1) << 8)` for `L` in 1 to 128 (R75, R173); outside a free value (log 7). -/
def header (curL : BitVec 8) : BitVec 16 :=
  if 1#8 ≤ curL ∧ curL ≤ 128#8 then 0x0080#16 ||| ((curL.setWidth 16 - 1#16) <<< 8)
  else Config.headerOutside curL

/-- `BUDGET - 1` (R113, R174); at 0 a free value (log 7). -/
def decBudget (b : Word) : Word := if b = 0#32 then Config.budgetBelowZero else b - 1#32

/-- `WCNT - 1` (R139, R174); at 0 a free value (log 7). -/
def decWcnt (w : BitVec 3) : BitVec 3 := if w = 0#3 then Config.wcntBelowZero else w - 1#3

/-- The port of a remainder of `r` bits (30_encoding.md R86): the narrowest that covers it. -/
def remainderPort (r : BitVec 5) : Reg :=
  if r ≤ 8#5 then .fifo1 else if r ≤ 16#5 then .fifo2 else .fifo4

/-- Ones in bits `r-1:0`. -/
def lowOnes (r : BitVec 5) : Word := (1#32 <<< r.toNat) - 1#32

/-- The bus data of a remainder of `r` bits of table word `w` (R84): bits `r-1:0` are the word's, the pad bits above
follow `PAD_POLICY`. -/
def remainderData (policy : PadPolicy) (r : BitVec 5) (w pad : Word) : Word :=
  match policy with
  | .draw => (w &&& lowOnes r) ||| (pad &&& ~~~ lowOnes r)
  | .zero => w &&& lowOnes r
  | .passthrough => w

end Sys2Proof.Machine
end

