-- ==== Sys2Proof/Machine/Ops.lean ====
section
/-! DEFINITION. The shared operations: table reads, bus operations, ending an idle check, raising an error, and what the
next step runs. -/

namespace Sys2Proof.Machine

/-! ### The table space (20_memory.md R40, R45, R47) -/

/-- The byte at an address, if the host supplied one. -/
def Memory.readByte : Memory → Nat → Option Byte
  | [], _ => none
  | (k, b) :: m, a => if k = a then some b else Memory.readByte m a

/-- Word `i` of the table space: the bytes at `4i` to `4i + 3`, low byte first (log 9). -/
def tableWord (m : Memory) (i : Nat) : Option Word :=
  match Memory.readByte m (4 * i), Memory.readByte m (4 * i + 1), Memory.readByte m (4 * i + 2),
    Memory.readByte m (4 * i + 3) with
  | some b0, some b1, some b2, some b3 => some (b3 ++ b2 ++ b1 ++ b0)
  | _, _, _, _ => none

/-- The cells of the words of a table, from index `i` on. -/
def tableCells : Nat → List Word → Memory
  | _, [] => []
  | i, w :: ws =>
      (4 * i, w.extractLsb' 0 8) :: (4 * i + 1, w.extractLsb' 8 8) :: (4 * i + 2, w.extractLsb' 16 8) ::
        (4 * i + 3, w.extractLsb' 24 8) :: tableCells (i + 1) ws

/-- The table space that holds a table (10_state.md R24). -/
def Memory.ofWords (ws : List Word) : Memory := tableCells 0 ws

/-- `TblRead(i)`, with a meaning for `0 <= i < TABLE_LEN` (00_scope.md R7). -/
def tblRead (s : State) (i : Nat) : Except Fault Word :=
  if i < s.tableLen.toNat then
    match tableWord s.table i with
    | some w => .ok w
    | none => .error (.tableWordNotSupplied i)
  else .error (.tableIndexOutside i)

/-! ### Small updates of the state -/

/-- `PHASE <- p`. -/
def State.goto (s : State) (p : Phase) : State := { s with phase := p }

/-- Appends a completed bus operation to the trace (20_memory.md R49). -/
def State.record (s : State) (e : BusEvent) : State := { s with trace := s.trace ++ [e] }

/-! ### Bus operations (40_bus_ops.md R100 to R105) -/

/-- The answer to the next status read (20_memory.md R51): the environment's next answer, or a free value. -/
def nextAnswer (answers : List Word) (reads : Nat) : Word :=
  match answers with
  | [] => Config.statusWord reads
  | v :: _ => v

/-- The value the next read of `STAT` returns. -/
def State.statusAnswer (s : State) : Word := nextAnswer s.answers s.reads

/-- `RD_STAT` (R101): the read is recorded and its answer used up. -/
def State.readStat (s : State) : State :=
  { s with
    trace := s.trace ++ [{ dir := .read, offset := Reg.stat.offset, value := s.statusAnswer }]
    answers := s.answers.tail
    reads := s.reads + 1 }

/-- A write of a FIFO port (R103 to R105). -/
def State.writeFifo (s : State) (port : Reg) (v : Word) : State :=
  s.record { dir := .write, offset := port.offset, value := v }

/-- `WR_EN` (R102): a plain write; `EN` then holds what was written (60_exceptions.md R209). -/
def State.writeEn (s : State) (v : Word) : State :=
  { s with trace := s.trace ++ [{ dir := .write, offset := Reg.en.offset, value := v }], en := v }

/-! ### Errors and the end of an idle check -/

/-- `raise` (60_exceptions.md R207, R208): the code is recorded, the command is over, nothing is written to the bus and
nothing is saved (R205). There is no return operation: the only continuation is a new command (R212). -/
def State.raise (s : State) (e : ErrorKind) : State := { s with result := e.result, phase := .ready }

/-- The end of a command without an error: `RESULT <- OK`, `PHASE <- READY` (R116, R142). -/
def State.finish (s : State) : State := { s with result := .ok, phase := .ready }

/-- `VERDICT` from `POLL` (R116). -/
def verdictOf (p : PollState) : Verdict := if p = .idle then .idle else .active

/-- `end_of_check` (41_status_monitor.md R116), after `POLL <- p`. -/
def State.endOfCheck (s : State) (p : PollState) : State :=
  let t : State := { s with poll := p, verdict := verdictOf p }
  if s.op = 0#1 then t.finish
  else if p = .idle then t.goto .hdr
  else t.raise .engineTimeout

/-! ### Resetting, and what the next step runs -/

/-- The reset of the block while it runs (70_reset_and_hazards.md R240, R241): the block's own state as after reset; the
parameters, the table, the environment and the host's offers keep what they hold (log 15). -/
def State.blockReset (s : State) : State :=
  { State.reset with
    params := s.params
    table := s.table
    en := s.en
    answers := s.answers
    reads := s.reads
    draws := s.draws
    busHeld := s.busHeld
    offers := s.offers }

/-- What the next step runs: an operation placed from outside; in `READY` the first command the host offers (R176);
in any other phase the operation whose key is `PHASE` (R78, R177). -/
def State.fetch (s : State) : Option Encoded :=
  match s.placed with
  | some e => some e
  | none =>
    if s.phase = .ready then
      match s.offers with
      | [] => none
      | r :: _ => some (.cmd r)
    else some (.seq s.phase.code)

/-- The state once what `fetch` names has been taken: a placed operation and an accepted offer are used up, `PHASE`
stays for the operation to change. -/
def State.consume (s : State) : State :=
  match s.placed with
  | some _ => { s with placed := none }
  | none => if s.phase = .ready then { s with offers := s.offers.tail } else s

/-- Whether an operation makes a bus access (R177, 40_bus_ops.md R100). -/
def issuesBus : Instr → Bool
  | .isIdle _ => false
  | .programChain _ _ _ _ => false
  | .validate => false
  | .select => true
  | .plan => false
  | .chunk => false
  | .check => false
  | .poll => true
  | .hdr => true
  | .dataw => true
  | .remw => true
  | .rdStat => true
  | .wrEn _ => true
  | .wrFifo1 _ => true
  | .wrFifo2 _ => true
  | .wrFifo4 _ => true
  | .tdiTdoHdr _ => true

/-- The block is stuck at an operation whose bus access does not complete (20_memory.md R58). -/
def State.stuckAt (s : State) (i : Instr) : Bool := s.busHeld && issuesBus i

/-- Exclusive ownership (20_memory.md R49, R54): the block is the only master of the register block while
`PHASE != READY`, so an operation placed from outside in such a phase breaks it (log 18). -/
def State.breaksOwnership (s : State) : Bool := s.placed.isSome && decide (s.phase ≠ .ready)

/-- Puts an operation where the next step fetches: a command first among the offers with the block `READY`, a sequencer
operation by its `PHASE`, any other key as a placed operation with the block `READY` (log 11, log 14, R54). The next
step then runs it: no reset is requested and the bus is not held. -/
def State.place (s : State) (e : Encoded) : State :=
  let free : State := { s with placed := none, resetRequest := false, busHeld := false }
  let outside : State := { free with placed := some e, phase := .ready }
  match e with
  | .cmd r => { free with phase := .ready, offers := r :: s.offers }
  | .seq key =>
    match Phase.ofCode key with
    | none => outside
    | some p => if p = .ready then outside else { free with phase := p }
  | .bus _ _ => outside
  | .hdr16 _ => outside

end Sys2Proof.Machine
end

