-- ==== Sys2Proof/Machine/Bus.lean ====
section
/-! DEFINITION. The bus operations on their own (40_bus_ops.md R100 to R105): one 32-bit access each, recorded in the
trace; no latch of the block changes. -/

namespace Sys2Proof.Machine

/-- `RD_STAT` (R101): the value returned stands in the trace; keeping it is up to the operation that issues the read. -/
def execRdStat (s : State) : Host.Outcome State Fault Refusal := .next s.readStat

/-- `WR_EN` (R102). -/
def execWrEn (v : Word) (s : State) : Host.Outcome State Fault Refusal := .next (s.writeEn v)

/-- `WR_FIFO1` (R103). -/
def execWrFifo1 (v : Word) (s : State) : Host.Outcome State Fault Refusal := .next (s.writeFifo .fifo1 v)

/-- `WR_FIFO2` (R104). -/
def execWrFifo2 (v : Word) (s : State) : Host.Outcome State Fault Refusal := .next (s.writeFifo .fifo2 v)

/-- `WR_FIFO4` (R105). -/
def execWrFifo4 (v : Word) (s : State) : Host.Outcome State Fault Refusal := .next (s.writeFifo .fifo4 v)

end Sys2Proof.Machine
end

