-- ==== Sys2Proof/Machine/Commands.lean ====
section
/-! DEFINITION. The host commands (41_status_monitor.md R117, 42_chain_programmer.md R130). A command is accepted in one
step, from `READY` only; one that meets a busy block has no effect (10_state.md R30). -/

namespace Sys2Proof.Machine

/-- `IS_IDLE` (R117). -/
def execIsIdle (maxIterations : Word) (s : State) : Host.Outcome State Fault Refusal :=
  if s.phase = .ready then
    .next { s with op := 0#1, maxi := maxIterations, result := .none, phase := .monStart }
  else .next s

/-- `PROGRAM_CHAIN` (R130); the table comes with the command (R24). -/
def execProgramChain (chainId lengthInBits tableLen : Word) (table : List Word) (s : State) :
    Host.Outcome State Fault Refusal :=
  if s.phase = .ready then
    .next
      { s with
        op := 1#1
        chainId := chainId
        len := lengthInBits
        tableLen := tableLen
        maxi := s.params.maxIter
        result := .none
        phase := .validate
        table := Memory.ofWords table }
  else .next s

end Sys2Proof.Machine
end

