-- ==== Sys2Proof/Machine/Monitor.lean ====
section
/-! DEFINITION. The Engine Status Monitor's operations (41_status_monitor.md R112, R113). -/

namespace Sys2Proof.Machine

/-- `CHECK` (R112, R115). -/
def execCheck (s : State) : Host.Outcome State Fault Refusal :=
  if s.maxi = 0#32 then .next (s.endOfCheck .timedOut)
  else .next { s with budget := s.maxi, poll := .polling, phase := .monRead }

/-- `POLL` (R113): one status read, its decode, and the decision. -/
def execPoll (s : State) : Host.Outcome State Fault Refusal :=
  if busy s.statusAnswer then
    let t : State := { s.readStat with budget := decBudget s.budget }
    if decBudget s.budget = 0#32 then .next (t.endOfCheck .timedOut)
    else .next (t.goto .monRead)
  else .next (s.readStat.endOfCheck .idle)

end Sys2Proof.Machine
end

