-- ==== Sys2Proof/Machine/Packet.lean ====
section
/-! DEFINITION. The header pattern (30_encoding.md R74). -/

namespace Sys2Proof.Machine

/-- `TDI_TDO_HDR`: a header value takes effect by being written, zero-extended, to the double-byte port, which opens a
packet of `lenm1 + 1` payload bits (R75, 20_memory.md R56; log 12). -/
def execTdiTdoHdr (lenm1 : BitVec 7) (s : State) : Host.Outcome State Fault Refusal :=
  .next (s.writeFifo .fifo2 ((headerValue lenm1).setWidth 32))

end Sys2Proof.Machine
end

