-- ==== Sys2Proof/Machine/Programmer.lean ====
section
/-! DEFINITION. The Chain Programmer's operations (42_chain_programmer.md R131 to R141). -/

namespace Sys2Proof.Machine

/-- `VALIDATE` (R131). -/
def execValidate (s : State) : Host.Outcome State Fault Refusal :=
  if s.chainId > 3#32 then .next (s.raise .invalidInput)
  else if s.tableLen < ceil32 s.len then .next (s.raise .invalidInput)
  else .next (s.goto .select)

/-- `SELECT` (R132). -/
def execSelect (s : State) : Host.Outcome State Fault Refusal :=
  .next ((s.writeEn (enableValue s.chainId)).goto .plan)

/-- `PLAN` (R133). -/
def execPlan (s : State) : Host.Outcome State Fault Refusal :=
  .next { s with fullLeft := fullChunksOf s.len, res := residualOf s.len, idx := 0#32, phase := .nextChunk }

/-- `CHUNK` (R135, R142). -/
def execChunk (s : State) : Host.Outcome State Fault Refusal :=
  if s.fullLeft > 0#32 then
    .next { s with curL := 128#8, fullLeft := s.fullLeft - 1#32, phase := .monStart }
  else if s.res > 0#7 then
    .next { s with curL := s.res.setWidth 8, res := 0#7, phase := .monStart }
  else .next s.finish

/-- `HDR` (R138). -/
def execHdr (s : State) : Host.Outcome State Fault Refusal :=
  let t := s.writeFifo .fifo2 ((header s.curL).setWidth 32)
  .next
    { t with
      wcnt := wordsOf s.curL
      rem := remainderOf s.curL
      phase := if wordsOf s.curL > 0#3 then .data else .remw }

/-- `DATAW` (R139). -/
def execDataw (s : State) : Host.Outcome State Fault Refusal :=
  match tblRead s s.idx.toNat with
  | .error f => .fault f
  | .ok w =>
    .next
      { s.writeFifo .fifo4 w with
        idx := s.idx + 1#32
        wcnt := decWcnt s.wcnt
        phase :=
          if decWcnt s.wcnt > 0#3 then .data
          else if s.rem > 0#5 then .remw
          else .nextChunk }

/-- `REMW` (R141): the pad bits are a fresh draw each time (R84). -/
def execRemw (s : State) : Host.Outcome State Fault Refusal :=
  match tblRead s s.idx.toNat with
  | .error f => .fault f
  | .ok w =>
    let d := remainderData s.params.padPolicy s.rem w (Config.padDraw s.draws)
    .next
      { s.writeFifo (remainderPort s.rem) d with
        idx := s.idx + 1#32
        rem := 0#5
        draws := s.draws + 1
        phase := .nextChunk }

end Sys2Proof.Machine
end

