-- ==== Sys2Proof/Machine/Dispatch.lean ====
section
/-! DEFINITION. One arm for each operation of the table. -/

namespace Sys2Proof.Machine

/-- What an operation does. -/
def exec (i : Instr) (s : State) : Host.Outcome State Fault Refusal :=
  match i with
  | .isIdle m => Sys2Proof.Machine.execIsIdle m s
  | .programChain c l n t => Sys2Proof.Machine.execProgramChain c l n t s
  | .validate => Sys2Proof.Machine.execValidate s
  | .select => Sys2Proof.Machine.execSelect s
  | .plan => Sys2Proof.Machine.execPlan s
  | .chunk => Sys2Proof.Machine.execChunk s
  | .check => Sys2Proof.Machine.execCheck s
  | .poll => Sys2Proof.Machine.execPoll s
  | .hdr => Sys2Proof.Machine.execHdr s
  | .dataw => Sys2Proof.Machine.execDataw s
  | .remw => Sys2Proof.Machine.execRemw s
  | .rdStat => Sys2Proof.Machine.execRdStat s
  | .wrEn v => Sys2Proof.Machine.execWrEn v s
  | .wrFifo1 v => Sys2Proof.Machine.execWrFifo1 v s
  | .wrFifo2 v => Sys2Proof.Machine.execWrFifo2 v s
  | .wrFifo4 v => Sys2Proof.Machine.execWrFifo4 v s
  | .tdiTdoHdr l => Sys2Proof.Machine.execTdiTdoHdr l s

end Sys2Proof.Machine
end

