-- ==== Sys2Proof/Machine/Step.lean ====
section
/-! DEFINITION. One step of the machine (43_arithmetic_and_sequencing.md R176, R177, R181). -/

namespace Sys2Proof.Machine

/-- A reset request is taken between two steps (R241). Otherwise the step decodes what `fetch` names and runs it; in
`READY` with no command offered the block stays as it is (R176), and so it does at a bus access that does not complete
(20_memory.md R58). An operation placed from outside while a command runs is refused (R54). -/
def step (s : State) : Host.Outcome State Fault Refusal :=
  if s.resetRequest then .next s.blockReset
  else
    match s.fetch with
    | none => .next s
    | some e =>
      match decode e with
      | .ok i =>
        if s.breaksOwnership then .refused (.ownershipBroken i)
        else if s.stuckAt i then .next s
        else exec i s.consume
      | .error r => .refused (.undecodable r)

/-- `s` with the operation of a table row's bits placed where the next step fetches (log 14). -/
def State.withFetchWord (s : State) (nbits w : Nat) : State :=
  match encodedOfTableWord nbits w with
  | none => s
  | some e => s.place e

end Sys2Proof.Machine
end

