-- ==== Sys2Proof/Machine/Algorithm.lean ====
section
/-! DEFINITION. The two algorithms as the spec writes them as a whole (41_status_monitor.md R114, 42_chain_programmer.md
R130), apart from the step-by-step machine that must agree with them. A `Flow` is what a run of them carries along. -/

namespace Sys2Proof.Machine

/-- The bus operations so far, the answers still to come, and the counters that select the free values. -/
structure Flow where
  trace : List BusEvent
  answers : List Word
  reads : Nat
  draws : Nat
  deriving DecidableEq, Repr

/-- The flow a state stands in. -/
def State.flow (s : State) : Flow :=
  { trace := s.trace, answers := s.answers, reads := s.reads, draws := s.draws }

/-- `RD_STAT`. -/
def Flow.read (f : Flow) : Word × Flow :=
  let v := nextAnswer f.answers f.reads
  (v, { f with
        trace := f.trace ++ [{ dir := .read, offset := Reg.stat.offset, value := v }]
        answers := f.answers.tail
        reads := f.reads + 1 })

/-- A write of register `r`. -/
def Flow.write (f : Flow) (r : Reg) (v : Word) : Flow :=
  { f with trace := f.trace ++ [{ dir := .write, offset := r.offset, value := v }] }

/-- `idle_check(m)` (R114; `IDLECHECK(m)` of R83): at most `m` reads, ending at the first that is not busy. -/
def idleCheck : Nat → Flow → Verdict × Flow
  | 0, f => (.active, f)
  | m + 1, f => if busy f.read.1 then idleCheck m f.read.2 else (.idle, f.read.2)

/-- `repeat n times: WR_FIFO4(T[idx]) ; idx <- idx + 1`. -/
def sendWords (tbl : Nat → Word) : Nat → Nat → Flow → Flow
  | 0, _, f => f
  | n + 1, i, f => sendWords tbl n (i + 1) (f.write .fifo4 (tbl i))

/-- The remainder of `r` bits of table word `w` (R130 step 4, R84, R86). -/
def sendRemainder (policy : PadPolicy) (r : BitVec 5) (w : Word) (f : Flow) : Flow :=
  if r = 0#5 then f
  else
    { f.write (remainderPort r) (remainderData policy r w (Config.padDraw f.draws)) with
      draws := f.draws + 1 }

/-- One chunk of `L` payload bits whose first table word is `i` (`PKT(L)` of R83): false when the idle check before it
ends `ACTIVE`. -/
def sendPacket (p : Params) (tbl : Nat → Word) (curL : BitVec 8) (i : Nat) (f : Flow) : Bool × Flow :=
  match idleCheck p.maxIter.toNat f with
  | (.active, g) => (false, g)
  | (.idle, g) =>
    let h := g.write .fifo2 ((header curL).setWidth 32)
    let n := (wordsOf curL).toNat
    (true, sendRemainder p.padPolicy (remainderOf curL) (tbl (i + n)) (sendWords tbl n i h))

/-- `n` full chunks from table word `i` on (R130 step 3). -/
def sendFullChunks (p : Params) (tbl : Nat → Word) : Nat → Nat → Flow → Bool × Flow
  | 0, _, f => (true, f)
  | n + 1, i, f =>
    match sendPacket p tbl 128#8 i f with
    | (false, g) => (false, g)
    | (true, g) => sendFullChunks p tbl n (i + 4) g

/-- `program_chain(chain_id, len, T, table_len)` (R130). -/
def programChain (p : Params) (chainId len tableLen : Word) (tbl : Nat → Word) (f : Flow) : ResultCode × Flow :=
  if chainId > 3#32 then (.invalidInput, f)
  else if tableLen < ceil32 len then (.invalidInput, f)
  else
    match sendFullChunks p tbl (fullChunksOf len).toNat 0 (f.write .en (enableValue chainId)) with
    | (false, g) => (.engineTimeout, g)
    | (true, g) =>
      if residualOf len = 0#7 then (.ok, g)
      else
        match sendPacket p tbl ((residualOf len).setWidth 8) (4 * (fullChunksOf len).toNat) g with
        | (false, h) => (.engineTimeout, h)
        | (true, h) => (.ok, h)

end Sys2Proof.Machine
end

