-- ==== Sys2Proof/Machine/Observe.lean ====
section
/-! DEFINITION. What can be observed: the response the host reads (10_state.md R17, 60_exceptions.md R205), and the
functions over the trace (20_memory.md R55, R56; 30_encoding.md R78, R81, R82; 42_chain_programmer.md R149). -/

namespace Sys2Proof.Machine

/-- The block is busy exactly when `PHASE != READY` (R30). -/
def State.busyNow (s : State) : Bool := s.phase != .ready

/-- A command has ended (70_reset_and_hazards.md R256). -/
def State.commandEnded (s : State) : Bool := s.phase == .ready && s.result != .none

/-- All that the host reads of the block (R205). -/
def State.hostView (s : State) : ResultCode × Verdict := (s.result, s.verdict)

/-- The bus key of an event, `dir ++ offset` (R78). -/
def BusEvent.key (e : BusEvent) : BitVec 9 :=
  match e.dir with
  | .read => 0#1 ++ e.offset
  | .write => 1#1 ++ e.offset

/-- The bytes a bus operation makes the engine's queue receive, in order (R55, 10_state.md R21 to R23). -/
def BusEvent.bytes (e : BusEvent) : List Byte :=
  if e.dir = .write then
    if e.offset = Reg.fifo1.offset then [e.value.extractLsb' 0 8]
    else if e.offset = Reg.fifo2.offset then [e.value.extractLsb' 0 8, e.value.extractLsb' 8 8]
    else if e.offset = Reg.fifo4.offset then
      [e.value.extractLsb' 0 8, e.value.extractLsb' 8 8, e.value.extractLsb' 16 8, e.value.extractLsb' 24 8]
    else []
  else []

/-- `FifoBytes(trace)` (R55). -/
def fifoBytes (t : List BusEvent) : List Byte := t.flatMap BusEvent.bytes

/-- A packet: its payload bits `L = h[14:8] + 1` and its payload bytes (R56, R81). -/
structure Packet where
  bits : Nat
  payload : List Byte
  deriving DecidableEq, Repr

/-- A read of `STAT`. -/
def BusEvent.isRead (e : BusEvent) : Bool := e.dir == .read

/-- A write of the register `r`. -/
def BusEvent.isWriteTo (r : Reg) (e : BusEvent) : Bool := e.dir == .write && e.offset == r.offset

/-- The packets of a trace (R56). A write of `FIFO2` that is the first one after a status read is a header
(40_bus_ops.md R104); `fresh` says that one is awaited, `cur` is the packet being filled. -/
def packetsFrom : Bool → Option Packet → List BusEvent → List Packet
  | _, cur, [] => cur.toList
  | fresh, cur, e :: es =>
    if e.isRead then packetsFrom true cur es
    else if fresh && e.isWriteTo .fifo2 then
      cur.toList ++ packetsFrom false (some ⟨(e.value.extractLsb' 8 7).toNat + 1, []⟩) es
    else packetsFrom fresh (cur.map fun p => { p with payload := p.payload ++ e.bytes }) es

/-- `Packets(trace)` (R56). -/
def packets (t : List BusEvent) : List Packet := packetsFrom false none t

/-- The bits of a byte, bit 0 first (R56). -/
def byteBits (b : Byte) : List Bool := (List.range 8).map b.getLsbD

/-- The chain bits of a packet: the first `L` bits of its payload bytes (R56). -/
def Packet.chainBits (p : Packet) : List Bool := (p.payload.flatMap byteBits).take p.bits

/-- `ChainBits(trace)` (R56). -/
def chainBits (t : List BusEvent) : List Bool := (packets t).flatMap Packet.chainBits

/-- The first `n` bits of a table, bit `k` being bit `k mod 32` of word `k div 32` (R45). -/
def tableBits (tbl : Nat → Word) (n : Nat) : List Bool :=
  (List.range n).map fun k => (tbl (k / 32)).getLsbD (k % 32)

/-- How many payload bytes a packet of `n` bits has (R81). -/
def payloadBytes (n : Nat) : Nat :=
  4 * (n / 32) +
    (if n % 32 = 0 then 0 else if n % 32 ≤ 8 then 1 else if n % 32 ≤ 16 then 2 else 4)

/-- How many of the bus operations are writes of the register `r`. -/
def countWrites (r : Reg) (t : List BusEvent) : Nat := t.countP (BusEvent.isWriteTo r)

/-- How many of the bus operations are status reads. -/
def countReads (t : List BusEvent) : Nat := t.countP BusEvent.isRead

/-- The codes of the response (30_encoding.md R77). -/
def State.responseCodes (s : State) : BitVec 2 × BitVec 1 := (s.result.code, s.verdict.code)

/-- The name of a chain identifier (10_state.md R25, R82); any other identifier has none. -/
def chainName (c : Word) : Option String :=
  if c = 0#32 then some "IO_SCAN_CHAIN_0"
  else if c = 1#32 then some "IO_SCAN_CHAIN_1"
  else if c = 2#32 then some "IO_SCAN_CHAIN_2"
  else if c = 3#32 then some "IO_SCAN_CHAIN_3"
  else none

/-- The last `n` hexadecimal digits of a number. -/
def hexDigits : Nat → Nat → String
  | 0, _ => ""
  | n + 1, v => hexDigits n (v / 16) ++ String.singleton (Nat.digitChar (v % 16)).toUpper

/-- The name of the register at an offset, in the notation of R82. -/
def regName (offset : BitVec 8) : String :=
  if offset = Reg.stat.offset then "STAT"
  else if offset = Reg.en.offset then "EN"
  else if offset = Reg.fifo1.offset then "FIFO1"
  else if offset = Reg.fifo2.offset then "FIFO2"
  else if offset = Reg.fifo4.offset then "FIFO4"
  else "0x" ++ hexDigits 2 offset.toNat

/-- A bus operation as a line of a trace (R82). -/
def BusEvent.render (e : BusEvent) : String :=
  match e.dir with
  | .read => "RD " ++ regName e.offset ++ " -> 0x" ++ hexDigits 8 e.value.toNat
  | .write => "WR " ++ regName e.offset ++ ", 0x" ++ hexDigits 8 e.value.toNat

end Sys2Proof.Machine
end

