-- ==== Sys2Proof/Safety.lean ====
section
/-! DEFINITION. What counts as a safe state and a run of one command: the terms the claims are stated in. -/

namespace Sys2Proof.Safety

open Sys2Proof.Machine

/-- No reset request, no operation placed from outside, and bus accesses complete (70_reset_and_hazards.md R254): the
block runs on its own. -/
def Undisturbed (s : State) : Prop := s.resetRequest = false ∧ s.placed = none ∧ s.busHeld = false

/-- The host supplied every word that `TABLE_LEN` counts (10_state.md R24). -/
def TableSupplied (s : State) : Prop := ∀ i, i < s.tableLen.toNat → (tableWord s.table i).isSome

/-- A `PROGRAM_CHAIN` that has passed `VALIDATE` is running (42_chain_programmer.md R131). -/
def Programming (s : State) : Prop :=
  s.op = 1#1 ∧ TableSupplied s ∧ s.chainId.toNat ≤ 3 ∧ (ceil32 s.len).toNat ≤ s.tableLen.toNat ∧
    s.maxi = s.params.maxIter

/-- Bits not yet started: full chunks and residual (R12). -/
def bitsLeft (s : State) : Nat := 128 * s.fullLeft.toNat + s.res.toNat

/-- Between two chunks: the words used and the bits left make up the length, or the last chunk has been sent
(R148, R150). -/
def BetweenChunks (s : State) : Prop :=
  (s.idx.toNat % 4 = 0 ∧ 32 * s.idx.toNat + bitsLeft s = s.len.toNat) ∨
    (bitsLeft s = 0 ∧ s.idx = ceil32 s.len)

/-- A chunk of `CUR_L` bits has been started and none of it sent (R135, R147, R150). -/
def ChunkStarted (s : State) : Prop :=
  1 ≤ s.curL.toNat ∧ s.curL.toNat ≤ 128 ∧ s.idx.toNat % 4 = 0 ∧
    32 * s.idx.toNat + s.curL.toNat + bitsLeft s = s.len.toNat ∧ (s.curL.toNat = 128 ∨ bitsLeft s = 0)

/-- Words of the chunk are being sent (R139). -/
def SendingWords (s : State) : Prop :=
  1 ≤ s.wcnt.toNat ∧ s.wcnt.toNat ≤ 4 ∧
    32 * s.idx.toNat + 32 * s.wcnt.toNat + s.rem.toNat + bitsLeft s = s.len.toNat ∧
    (bitsLeft s = 0 ∨ (s.rem = 0#5 ∧ (s.idx.toNat + s.wcnt.toNat) % 4 = 0))

/-- Only the remainder is left (R141). -/
def RemainderLeft (s : State) : Prop :=
  s.wcnt = 0#3 ∧ s.rem ≠ 0#5 ∧ bitsLeft s = 0 ∧ 32 * s.idx.toNat + s.rem.toNat = s.len.toNat

/-- What holds of the latches in each phase. -/
def PhaseInv (s : State) : Prop :=
  match s.phase with
  | .ready => True
  | .validate => s.op = 1#1 ∧ TableSupplied s ∧ s.maxi = s.params.maxIter
  | .select => Programming s
  | .plan => Programming s
  | .nextChunk => Programming s ∧ BetweenChunks s
  | .monStart => s.op = 0#1 ∨ (Programming s ∧ ChunkStarted s)
  | .monRead =>
      s.poll = .polling ∧ 1 ≤ s.budget.toNat ∧ s.budget.toNat ≤ s.maxi.toNat ∧
        (s.op = 0#1 ∨ (Programming s ∧ ChunkStarted s))
  | .hdr => s.poll = .idle ∧ Programming s ∧ ChunkStarted s
  | .data => Programming s ∧ SendingWords s
  | .remw => Programming s ∧ RemainderLeft s

/-- The invariant of the machine: nothing placed from outside, the table space in canonical form, every offered command
well formed, no result while a command runs (10_state.md R17), and the latches as their phase says. -/
structure Inv (s : State) : Prop where
  nothingPlaced : s.placed = none
  tableCanonical : Memory.wf s.table
  offersWellFormed : ∀ r ∈ s.offers, (decodeCmd r).wellFormed = true
  noResultWhileBusy : s.phase ≠ .ready → s.result = .none
  latches : PhaseInv s

/-- `k` steps of the machine lead from `s` to `t`. -/
def Leads (k : Nat) (s t : State) : Prop := Host.Core.run core k s = .next t

/-- The block is `READY`, undisturbed, and the host offers the command `r` next. -/
def Offered (r : CmdRecord) (s : State) : Prop :=
  Undisturbed s ∧ s.phase = .ready ∧ ∃ rest, s.offers = r :: rest

/-- The command that is accepted in `s` ends in `t`, after `k` steps: `t` is the first `READY` state after the
acceptance (70_reset_and_hazards.md R256). -/
def EndsAfter (k : Nat) (s t : State) : Prop :=
  1 ≤ k ∧ Leads k s t ∧ t.phase = .ready ∧ ∀ j u, 1 ≤ j → j < k → Leads j s u → u.phase ≠ .ready

/-- The command that is accepted in `s` ends in `t`. -/
def CommandEnds (s t : State) : Prop := ∃ k, EndsAfter k s t

/-- The bus operations a run from `s` to `t` has issued. -/
def newEvents (s t : State) : List BusEvent := t.trace.drop s.trace.length

/-- The number of chunks of a command of `n` bits: `F + [R != 0]` (42_chain_programmer.md R149). -/
def chunkCount (n : Nat) : Nat := n / 128 + (if n % 128 = 0 then 0 else 1)

/-- Two states differ at most in the latches whose reset value the spec leaves unspecified (10_state.md R28). -/
def SameButUnspecified (s t : State) : Prop :=
  s.phase = t.phase ∧ s.result = t.result ∧ s.params = t.params ∧ s.table = t.table ∧ s.trace = t.trace ∧
    s.en = t.en ∧ s.answers = t.answers ∧ s.reads = t.reads ∧ s.draws = t.draws ∧ s.busHeld = t.busHeld ∧ s.offers = t.offers ∧
    s.resetRequest = t.resetRequest ∧ s.placed = t.placed

end Sys2Proof.Safety
end

