-- ==== Sys2Proof/Certificates/Slice0/Obligations.lean ====
section
/-! DEFINITION. The statements about the machine. Each says which rules of the spec it formalises; one that rests on a
choice of the model says so and names the log entry. Numbers are written out from the spec's words, not with the
functions the meanings call, wherever the spec gives them. -/

open Sys2Proof Sys2Proof.Machine Sys2Proof.Safety

/-! ### Host commands -/

/-- R117, R176: `IS_IDLE` offered to a `READY` block writes `OP`, `MAXI`, `RESULT` and `PHASE`, and nothing else. -/
def Obligations.IsIdleAcceptedWhenReady : Prop :=
  ∀ (m : Word) (s : State), s.phase = .ready →
    exec (.isIdle m) s = .next { s with op := 0#1, maxi := m, result := .none, phase := .monStart }

/-- R130, R176, R24: `PROGRAM_CHAIN` offered to a `READY` block writes the five command latches, `RESULT` and `PHASE`;
word `i` of the table space is then word `i` of the table that came with the command. -/
def Obligations.ProgramChainAcceptedWhenReady : Prop :=
  ∀ (c l n : Word) (tbl : List Word) (s : State), s.phase = .ready →
    exec (.programChain c l n tbl) s =
        .next
          { s with
            op := 1#1
            chainId := c
            len := l
            tableLen := n
            maxi := s.params.maxIter
            result := .none
            phase := .validate
            table := Memory.ofWords tbl } ∧
      ∀ i, tableWord (Memory.ofWords tbl) i = tbl[i]?

/-- R30: a command is accepted only in `READY`; while the block is busy it has no effect on any latch, and the host's
offers are held off. -/
def Obligations.BusyBlockHoldsCommandsOff : Prop :=
  ∀ s : State,
    (s.busyNow = true ↔ s.phase ≠ .ready) ∧
      (s.phase ≠ .ready →
        (∀ m, exec (.isIdle m) s = .next s) ∧ (∀ c l n tbl, exec (.programChain c l n tbl) s = .next s) ∧
          (Undisturbed s → ∀ t, step s = .next t → t.offers = s.offers))

/-! ### The Chain Programmer's operations -/

/-- R131: `VALIDATE` raises `InvalidInput` for a chain identifier above 3 or a table shorter than the length needs, and
otherwise goes to `SELECT`; nothing else changes. -/
def Obligations.ValidateChecksPreconditions : Prop :=
  decode (.seq 1#4) = .ok .validate ∧
    ∀ s : State,
      exec .validate s =
        .next
          (if 3 < s.chainId.toNat ∨ s.tableLen.toNat < (s.len.toNat + 31) / 32 then
            { s with result := .invalidInput, phase := .ready }
          else { s with phase := .select })

/-- R132, R72: `SELECT` writes the one-hot value of the chain to `EN`, once, and nothing else. -/
def Obligations.SelectEnablesOneChain : Prop :=
  decode (.seq 2#4) = .ok .select ∧
    ∀ s : State, s.chainId.toNat ≤ 3 →
      exec .select s =
        .next
          { s with
            trace := s.trace ++ [⟨.write, 0x04#8, BitVec.ofNat 32 (2 ^ s.chainId.toNat)⟩]
            en := BitVec.ofNat 32 (2 ^ s.chainId.toNat)
            phase := .plan }

/-- R133: `PLAN` cuts the length into full 128-bit chunks and a residual of 0 to 127 bits, and issues no bus
operation. -/
def Obligations.PlanPartitionsLength : Prop :=
  decode (.seq 3#4) = .ok .plan ∧
    ∀ s : State,
      exec .plan s =
        .next
          { s with
            fullLeft := BitVec.ofNat 32 (s.len.toNat / 128)
            res := BitVec.ofNat 7 (s.len.toNat % 128)
            idx := 0#32
            phase := .nextChunk }

/-- R135: `CHUNK` starts a full chunk while one is left, then the residual chunk, and then ends the command with `OK`;
a chunk that starts has 1 to 128 bits. -/
def Obligations.ChunkStartsNextOrEnds : Prop :=
  decode (.seq 4#4) = .ok .chunk ∧
    ∀ s : State,
      (0 < s.fullLeft.toNat →
          exec .chunk s = .next { s with curL := 128#8, fullLeft := s.fullLeft - 1#32, phase := .monStart }) ∧
        (s.fullLeft.toNat = 0 → 0 < s.res.toNat →
          exec .chunk s =
              .next { s with curL := BitVec.ofNat 8 s.res.toNat, res := 0#7, phase := .monStart } ∧
            1 ≤ (BitVec.ofNat 8 s.res.toNat).toNat ∧ (BitVec.ofNat 8 s.res.toNat).toNat ≤ 128) ∧
        (s.fullLeft.toNat = 0 → s.res.toNat = 0 →
          exec .chunk s = .next { s with result := .ok, phase := .ready })

/-- R138, R75: `HDR` writes `0x80 + 256 * (CUR_L - 1)` to the double-byte port and splits the chunk into whole words and
a remainder. -/
def Obligations.HdrWritesPacketHeader : Prop :=
  decode (.seq 7#4) = .ok .hdr ∧
    ∀ s : State, 1 ≤ s.curL.toNat → s.curL.toNat ≤ 128 →
      exec .hdr s =
        .next
          { s with
            trace := s.trace ++ [⟨.write, 0x14#8, BitVec.ofNat 32 (128 + 256 * (s.curL.toNat - 1))⟩]
            wcnt := BitVec.ofNat 3 (s.curL.toNat / 32)
            rem := BitVec.ofNat 5 (s.curL.toNat % 32)
            phase := if 32 ≤ s.curL.toNat then .data else .remw }

/-- R139, R85: `DATAW` writes the table word at `IDX` unchanged to the quad-byte port and counts. -/
def Obligations.DatawSendsOneTableWord : Prop :=
  decode (.seq 8#4) = .ok .dataw ∧
    ∀ (s : State) (w : Word), s.idx.toNat < s.tableLen.toNat → tableWord s.table s.idx.toNat = some w →
      1 ≤ s.wcnt.toNat →
      exec .dataw s =
        .next
          { s with
            trace := s.trace ++ [⟨.write, 0x1C#8, w⟩]
            idx := BitVec.ofNat 32 (s.idx.toNat + 1)
            wcnt := BitVec.ofNat 3 (s.wcnt.toNat - 1)
            phase := if 2 ≤ s.wcnt.toNat then .data else if 1 ≤ s.rem.toNat then .remw else .nextChunk }

/-- R141, R84, R86: `REMW` makes one write on the narrowest port that covers the remainder; the low bits are the table
word's, the pad bits are 0 under `zero`, the word's under `passthrough`, and anything under `draw`. -/
def Obligations.RemwSendsRemainder : Prop :=
  decode (.seq 9#4) = .ok .remw ∧
    ∀ (s : State) (w : Word), s.idx.toNat < s.tableLen.toNat → tableWord s.table s.idx.toNat = some w →
      1 ≤ s.rem.toNat →
      ∃ d : Word,
        (∀ k, k < s.rem.toNat → d.getLsbD k = w.getLsbD k) ∧
          (s.params.padPolicy = .zero → ∀ k, s.rem.toNat ≤ k → d.getLsbD k = false) ∧
          (s.params.padPolicy = .passthrough → d = w) ∧
          exec .remw s =
            .next
              { s with
                trace := s.trace ++
                  [⟨.write, if s.rem.toNat ≤ 8 then 0x10#8 else if s.rem.toNat ≤ 16 then 0x14#8 else 0x1C#8, d⟩]
                idx := BitVec.ofNat 32 (s.idx.toNat + 1)
                rem := 0#5
                draws := s.draws + 1
                phase := .nextChunk }

/-- The model's choice (log 8; R7 gives `TblRead(i)` a meaning for `i < TABLE_LEN` only): a table read outside the
declared length, or of a word the host did not supply, stops with a fault that names it. -/
def Obligations.TableReadOutsideStops : Prop :=
  ∀ s : State,
    (s.tableLen.toNat ≤ s.idx.toNat →
        exec .dataw s = .fault (.tableIndexOutside s.idx.toNat) ∧
          exec .remw s = .fault (.tableIndexOutside s.idx.toNat)) ∧
      (s.idx.toNat < s.tableLen.toNat → tableWord s.table s.idx.toNat = none →
        exec .dataw s = .fault (.tableWordNotSupplied s.idx.toNat) ∧
          exec .remw s = .fault (.tableWordNotSupplied s.idx.toNat))

/-- The model's choice (log 7): on operands outside the ranges the spec states (R72, R75, R174; no run reaches them) the
operations still complete, with every stated effect, and the one value the spec does not state is the constant of
`Config` that has no body, so nothing is known of it. With no remainder bit (R141, R84) all of `REMW`'s data are pad
bits: a fresh draw under `draw`, and what the policy says, 0 or the table word's, under the other two. -/
def Obligations.UnstatedValuesStayOpen : Prop :=
  ∀ s : State,
    (3 < s.chainId.toNat →
        exec .select s =
          .next
            { s with
              trace := s.trace ++ [⟨.write, 0x04#8, Config.enOutside s.chainId⟩]
              en := Config.enOutside s.chainId
              phase := .plan }) ∧
      (s.curL.toNat = 0 ∨ 128 < s.curL.toNat →
        exec .hdr s =
          .next
            { s with
              trace := s.trace ++ [⟨.write, 0x14#8, (Config.headerOutside s.curL).setWidth 32⟩]
              wcnt := BitVec.ofNat 3 (s.curL.toNat / 32)
              rem := BitVec.ofNat 5 (s.curL.toNat % 32)
              phase := if 32 ≤ s.curL.toNat then .data else .remw }) ∧
      (∀ w, s.idx.toNat < s.tableLen.toNat → tableWord s.table s.idx.toNat = some w → s.wcnt = 0#3 →
        exec .dataw s =
          .next
            { s with
              trace := s.trace ++ [⟨.write, 0x1C#8, w⟩]
              idx := s.idx + 1#32
              wcnt := Config.wcntBelowZero
              phase := if Config.wcntBelowZero ≠ 0#3 then .data else if s.rem ≠ 0#5 then .remw else .nextChunk }) ∧
      (∀ w, s.idx.toNat < s.tableLen.toNat → tableWord s.table s.idx.toNat = some w → s.rem = 0#5 →
        exec .remw s =
          .next
            { s with
              trace := s.trace ++
                [⟨.write, 0x10#8,
                  match s.params.padPolicy with
                  | .draw => Config.padDraw s.draws
                  | .zero => 0#32
                  | .passthrough => w⟩]
              idx := s.idx + 1#32
              draws := s.draws + 1
              phase := .nextChunk }) ∧
      (2 ^ 28 ≤ s.statusAnswer.toNat → s.budget = 0#32 →
        exec .poll s =
          .next
            { s with
              trace := s.trace ++ [⟨.read, 0x00#8, s.statusAnswer⟩]
              answers := s.answers.tail
              reads := s.reads + 1
              budget := Config.budgetBelowZero
              poll := if Config.budgetBelowZero = 0#32 then .timedOut else s.poll
              verdict := if Config.budgetBelowZero = 0#32 then .active else s.verdict
              result :=
                if Config.budgetBelowZero ≠ 0#32 then s.result else if s.op = 0#1 then .ok else .engineTimeout
              phase := if Config.budgetBelowZero = 0#32 then .ready else .monRead })

/-! ### The Engine Status Monitor's operations -/

/-- R112, R115: `CHECK` issues no bus operation; with a budget it starts polling, with budget 0 the check ends
`TimedOut` at once. -/
def Obligations.CheckStartsPollingOrTimesOut : Prop :=
  decode (.seq 5#4) = .ok .check ∧
    ∀ s : State,
      (s.maxi ≠ 0#32 →
          exec .check s = .next { s with budget := s.maxi, poll := .polling, phase := .monRead }) ∧
        (s.maxi = 0#32 →
          exec .check s =
            .next
              { s with
                poll := .timedOut
                verdict := .active
                result := if s.op = 0#1 then .ok else .engineTimeout
                phase := .ready })

/-- R113, R116, R101: `POLL` makes one status read; a word below 2^28 is idle and ends the check, any other one costs a
unit of the budget and ends the check only with the last unit. -/
def Obligations.PollReadsDecodesDecides : Prop :=
  decode (.seq 6#4) = .ok .poll ∧
    ∀ s r : State,
      r =
          { s with
            trace := s.trace ++ [⟨.read, 0x00#8, s.statusAnswer⟩]
            answers := s.answers.tail
            reads := s.reads + 1 } →
      (s.statusAnswer.toNat < 2 ^ 28 →
          exec .poll s =
            .next
              (if s.op = 0#1 then { r with poll := .idle, verdict := .idle, result := .ok, phase := .ready }
              else { r with poll := .idle, verdict := .idle, phase := .hdr })) ∧
        (2 ^ 28 ≤ s.statusAnswer.toNat → 2 ≤ s.budget.toNat →
          exec .poll s = .next { r with budget := BitVec.ofNat 32 (s.budget.toNat - 1), phase := .monRead }) ∧
        (2 ^ 28 ≤ s.statusAnswer.toNat → s.budget.toNat = 1 →
          exec .poll s =
            .next
              { r with
                budget := 0#32
                poll := .timedOut
                verdict := .active
                result := if s.op = 0#1 then .ok else .engineTimeout
                phase := .ready })

/-- R51, and the model's choice of where the answers come from (log 5): a status read returns the environment's next
answer, whatever it is, and the block's next step never depends on the oracle being there. -/
def Obligations.StatusReadTakesTheNextAnswer : Prop :=
  ∀ (s : State) (v : Word) (rest : List Word), s.answers = v :: rest →
    s.statusAnswer = v ∧ ∃ t, exec .poll s = .next t ∧ t.trace = s.trace ++ [⟨.read, 0x00#8, v⟩] ∧ t.answers = rest

/-- R111: the fields of a status word, and busy exactly when one of its top four bits is set; bits 27:0 never
matter. -/
def Obligations.BusyReadsTheTopFourBits : Prop :=
  ∀ s : Word,
    (active s).toNat = s.toNat / 2 ^ 31 ∧ (wfifocnt s).toNat = s.toNat / 2 ^ 28 % 8 ∧
      (busy s = true ↔ (active s = 1#1 ∨ 0 < (wfifocnt s).toNat)) ∧
      (busy s = true ↔ s &&& 0xF0000000#32 ≠ 0#32)

/-! ### Bus operations and the header pattern -/

/-- R100 to R105: each bus operation on its own is one access, recorded in the trace; no latch changes. -/
def Obligations.BusOperationsRecordOneAccess : Prop :=
  ∀ (v : Word) (s : State),
    exec .rdStat s =
        .next
          { s with
            trace := s.trace ++ [⟨.read, 0x00#8, s.statusAnswer⟩]
            answers := s.answers.tail
            reads := s.reads + 1 } ∧
      exec (.wrEn v) s = .next { s with trace := s.trace ++ [⟨.write, 0x04#8, v⟩], en := v } ∧
      exec (.wrFifo1 v) s = .next { s with trace := s.trace ++ [⟨.write, 0x10#8, v⟩] } ∧
      exec (.wrFifo2 v) s = .next { s with trace := s.trace ++ [⟨.write, 0x14#8, v⟩] } ∧
      exec (.wrFifo4 v) s = .next { s with trace := s.trace ++ [⟨.write, 0x1C#8, v⟩] }

/-- R55, R21 to R23: the ports enqueue 1, 2 or 4 bytes, low byte first; every other bus operation enqueues
nothing. -/
def Obligations.PortsEnqueueLowByteFirst : Prop :=
  ∀ (v : Word) (tr : List BusEvent),
    let byte (n : Nat) : Byte := BitVec.ofNat 8 (v.toNat / 256 ^ n)
    fifoBytes (tr ++ [⟨.write, 0x10#8, v⟩]) = fifoBytes tr ++ [byte 0] ∧
      fifoBytes (tr ++ [⟨.write, 0x14#8, v⟩]) = fifoBytes tr ++ [byte 0, byte 1] ∧
      fifoBytes (tr ++ [⟨.write, 0x1C#8, v⟩]) = fifoBytes tr ++ [byte 0, byte 1, byte 2, byte 3] ∧
      fifoBytes [] = [] ∧
      ∀ e : BusEvent, e.dir = .read ∨ (e.offset ≠ 0x10#8 ∧ e.offset ≠ 0x14#8 ∧ e.offset ≠ 0x1C#8) →
        fifoBytes (tr ++ [e]) = fifoBytes tr

/-- The model's choice (log 12; R74, R75 give the value): the header pattern takes effect by being written,
zero-extended, to the double-byte port; nothing else changes. -/
def Obligations.HeaderPatternIsWrittenToFifo2 : Prop :=
  ∀ (l : BitVec 7) (s : State),
    exec (.tdiTdoHdr l) s =
      .next { s with trace := s.trace ++ [⟨.write, 0x14#8, BitVec.ofNat 32 (128 + 256 * l.toNat)⟩] }

/-! ### Arithmetic and operand forms -/

/-- R175, R7: `ceil32` is the number of words that hold `n` bits, for every 32-bit `n`, without a wrap. -/
def Obligations.CeilThirtyTwoIsExact : Prop :=
  ∀ n : Word, (ceil32 n).toNat = (n.toNat + 31) / 32 ∧ (ceil32 n).toNat ≤ 2 ^ 27

/-- R72: the enable values of the four chains; bits 31:4 are 0. -/
def Obligations.EnableValueIsOneHot : Prop :=
  enableValue 0#32 = 0x00000001#32 ∧ enableValue 1#32 = 0x00000002#32 ∧ enableValue 2#32 = 0x00000004#32 ∧
    enableValue 3#32 = 0x00000008#32

/-- R74, R75: for 1 to 128 bits the header is the length minus one in bits 14:8 over 0x80, and it decodes to the header
pattern with exactly that length. -/
def Obligations.HeaderEncodesLengthMinusOne : Prop :=
  ∀ n : BitVec 8, 1 ≤ n.toNat → n.toNat ≤ 128 →
    (header n).toNat = 128 + 256 * (n.toNat - 1) ∧ header n &&& 0x80FF#16 = 0x0080#16 ∧
      decode (.hdr16 (header n)) = .ok (.tdiTdoHdr (BitVec.ofNat 7 (n.toNat - 1)))

/-- R86: the port of a remainder. -/
def Obligations.RemainderPortIsTheNarrowest : Prop :=
  ∀ r : BitVec 5, 1 ≤ r.toNat →
    remainderPort r = if r.toNat ≤ 8 then .fifo1 else if r.toNat ≤ 16 then .fifo2 else .fifo4

/-- R84: whatever the policy, a remainder's valid bits are the table word's and its data is one that `draw` allows: a
claim proved under `draw` holds under the other two. -/
def Obligations.EveryPadPolicyIsADraw : Prop :=
  ∀ (policy : PadPolicy) (r : BitVec 5) (w pad : Word),
    (∀ k, k < r.toNat → (remainderData policy r w pad).getLsbD k = w.getLsbD k) ∧
      (∀ k, r.toNat ≤ k → (remainderData .draw r w pad).getLsbD k = pad.getLsbD k) ∧
      ∃ pad', remainderData policy r w pad = remainderData .draw r w pad'

/-- R41, R43: the five offsets, and every register's address is `BASE` plus its offset, aligned and without a wrap. -/
def Obligations.RegisterAddressesAreAligned : Prop :=
  Reg.stat.offset = 0x00#8 ∧ Reg.en.offset = 0x04#8 ∧ Reg.fifo1.offset = 0x10#8 ∧ Reg.fifo2.offset = 0x14#8 ∧
    Reg.fifo4.offset = 0x1C#8 ∧
    ∀ (p : Params) (r : Reg),
      (busAddress p r.offset).toNat = (Params.base p).toNat + r.offset.toNat ∧
        (Params.base p).toNat % 4 = 0 ∧ (Params.base p).toNat + 0x1C < 2 ^ 32 ∧
        (busAddress p r.offset).toNat % 4 = 0

/-- R6, R80: the "undefined" sentinel is 4 or more, whichever value it has, and `VALIDATE` refuses it. -/
def Obligations.UndefinedChainIsInvalidInput : Prop :=
  ∀ s : State,
    4 ≤ (Params.chainUndefined s.params).toNat ∧
      (s.chainId = Params.chainUndefined s.params →
        exec .validate s = .next { s with result := .invalidInput, phase := .ready })

/-! ### Decoding -/

/-- R78, R79, R74: decoding what an operation is encoded as gives the operation back, with every operand; and what
decodes from a `PHASE` value, a bus key or a header value is encoded as just that (a read carries no data). -/
def Obligations.DecodeAndEncodeAgree : Prop :=
  (∀ i : Instr, decode (encode i) = .ok i) ∧
    (∀ (k : BitVec 4) (i : Instr), decode (.seq k) = .ok i → encode i = .seq k) ∧
    (∀ (k : BitVec 9) (d : Word) (i : Instr), decode (.bus k d) = .ok i →
      encode i = .bus k (if i = .rdStat then 0#32 else d)) ∧
    (∀ (v : BitVec 16) (i : Instr), decode (.hdr16 v) = .ok i → encode i = .hdr16 v)

/-- R78, R80, R74: exactly the keys of the table decode: every command record, `PHASE` 1 to 9, the five bus keys, and
the 16-bit values with 0x80 in the low byte and bit 15 clear. -/
def Obligations.DecodeAcceptsExactlyTheTable : Prop :=
  (∀ r : CmdRecord, ∃ i, decode (.cmd r) = .ok i) ∧
    (∀ k : BitVec 4, (∃ i, decode (.seq k) = .ok i) ↔ 1 ≤ k.toNat ∧ k.toNat ≤ 9) ∧
    (∀ (k : BitVec 9) (d : Word),
      (∃ i, decode (.bus k d) = .ok i) ↔ k.toNat ∈ [0x000, 0x104, 0x110, 0x114, 0x11C]) ∧
    ∀ v : BitVec 16, (∃ i, decode (.hdr16 v) = .ok i) ↔ v.toNat < 2 ^ 15 ∧ v.toNat % 256 = 128

/-- R78, R79, R74: some words written out from the table decode to what they stand for (log 13). -/
def Obligations.TableWordsDecode : Prop :=
  decodeTableWord 8 0b0 = some (.isIdle 0#32) ∧ decodeTableWord 8 0b1001 = some .remw ∧
    decodeTableWord 16 0b100000100 = some (.wrEn 0#32) ∧ decodeTableWord 16 0b0111111110000000 = some (.tdiTdoHdr 127#7)

/-! ### One step of the machine -/

/-- R78, R176, R177, and the model's way of fetching (log 11, log 14): a step runs the operation that is decoded from
what is fetched: an operation placed from outside while the block is `READY` (R54), the first command offered in
`READY`, or the one `PHASE` selects. -/
def Obligations.StepRunsTheFetchedOperation : Prop :=
  ∀ s : State, s.resetRequest = false →
    (∀ e i, s.busHeld = false → s.placed = none ∨ s.phase = .ready → s.fetch = some e → decode e = .ok i →
        step s = exec i s.consume) ∧
      (∀ e, s.placed = some e → s.fetch = some e ∧ s.consume = { s with placed := none }) ∧
      (∀ r rest, s.placed = none → s.phase = .ready → s.offers = r :: rest →
        s.fetch = some (.cmd r) ∧ s.consume = { s with offers := rest }) ∧
      (s.placed = none → s.phase ≠ .ready → s.fetch = some (.seq s.phase.code) ∧ s.consume = s)

/-- R176: in `READY`, with no command offered, the block takes no step of its own. -/
def Obligations.ReadyBlockWaitsForACommand : Prop :=
  ∀ s : State, Undisturbed s → s.phase = .ready → s.offers = [] → step s = .next s

/-- R58: a bus access that does not complete leaves the block stuck at that step, as it was; the operations that make
no bus access are not affected. -/
def Obligations.HeldBusLeavesTheBlockStuck : Prop :=
  ∀ s : State, s.resetRequest = false → s.placed = none → s.busHeld = true →
    (s.phase = .select ∨ s.phase = .monRead ∨ s.phase = .hdr ∨ s.phase = .data ∨ s.phase = .remw →
        step s = .next s) ∧
      ∀ t, s.phase = .validate ∨ s.phase = .plan ∨ s.phase = .nextChunk ∨ s.phase = .monStart →
        step { s with busHeld := false } = .next t → step s = .next { t with busHeld := true }

/-- R80, R52 and the model's choice (log 11): a placed key that no row of the table has is refused by name. -/
def Obligations.UndescribedKeyIsRefused : Prop :=
  ∀ (s : State) (e : Encoded) (r : DecodeError), s.resetRequest = false → s.placed = some e → decode e = .error r →
    step s = .refused (.undecodable r)

/-- R54, and the model's form of an access from outside (log 11, log 18): while a command runs the block owns the
register block, and a step at which something else would run an operation there is refused. -/
def Obligations.OutsideAccessDuringACommandIsRefused : Prop :=
  ∀ (s : State) (e : Encoded) (i : Instr), s.resetRequest = false → s.placed = some e → s.phase ≠ .ready →
    decode e = .ok i → step s = .refused (.ownershipBroken i)

/-- R177, R116, R131: the transition table, each next phase under the condition its row names. A busy answer is one of
2^28 or more (R111). At `BUDGET = 0` in `MON_READ` and `WCNT = 0` in `DATA`, which no run reaches, what is left is the
model's free value (log 7). -/
def Obligations.StepFollowsTheTransitionTable : Prop :=
  ∀ s t : State, Undisturbed s → step s = .next t →
    match s.phase with
    | .ready =>
        (s.offers = [] ∧ t = s) ∨
          ∃ r rest, s.offers = r :: rest ∧ t.offers = rest ∧
            ((r.op = 0#1 ∧ t.op = 0#1 ∧ t.phase = .monStart) ∨ (r.op = 1#1 ∧ t.op = 1#1 ∧ t.phase = .validate))
    | .validate =>
        if 3 < s.chainId.toNat ∨ s.tableLen.toNat < (s.len.toNat + 31) / 32 then
          t.phase = .ready ∧ t.result = .invalidInput
        else t.phase = .select
    | .select => t.phase = .plan
    | .plan => t.phase = .nextChunk
    | .nextChunk =>
        if 0 < s.fullLeft.toNat ∨ 0 < s.res.toNat then t.phase = .monStart else t.phase = .ready ∧ t.result = .ok
    | .monStart =>
        if 0 < s.maxi.toNat then t.phase = .monRead
        else
          t.phase = .ready ∧ t.poll = .timedOut ∧ t.verdict = .active ∧
            t.result = if s.op = 0#1 then .ok else .engineTimeout
    | .monRead =>
        let left : Word := if s.budget = 0#32 then Config.budgetBelowZero else s.budget - 1#32
        if s.statusAnswer.toNat < 2 ^ 28 then
          t.poll = .idle ∧ t.verdict = .idle ∧
            if s.op = 0#1 then t.phase = .ready ∧ t.result = .ok else t.phase = .hdr
        else if left ≠ 0#32 then t.phase = .monRead ∧ t.budget = left
        else
          t.phase = .ready ∧ t.poll = .timedOut ∧ t.verdict = .active ∧
            t.result = if s.op = 0#1 then .ok else .engineTimeout
    | .hdr => if 32 ≤ s.curL.toNat then t.phase = .data else t.phase = .remw
    | .data =>
        let left : BitVec 3 := if s.wcnt = 0#3 then Config.wcntBelowZero else s.wcnt - 1#3
        if left ≠ 0#3 then t.phase = .data else if 0 < s.rem.toNat then t.phase = .remw else t.phase = .nextChunk
    | .remw => t.phase = .nextChunk

/-- R177, R181, R5: a step issues at most one bus operation, and only the one its phase allows. -/
def Obligations.StepIssuesAtMostOneBusOperation : Prop :=
  ∀ s t : State, Undisturbed s → step s = .next t →
    match s.phase with
    | .select => ∃ v, t.trace = s.trace ++ [⟨.write, 0x04#8, v⟩]
    | .monRead => ∃ v, t.trace = s.trace ++ [⟨.read, 0x00#8, v⟩]
    | .hdr => ∃ v, t.trace = s.trace ++ [⟨.write, 0x14#8, v⟩]
    | .data => ∃ v, t.trace = s.trace ++ [⟨.write, 0x1C#8, v⟩]
    | .remw => ∃ v o, (o = 0x10#8 ∨ o = 0x14#8 ∨ o = 0x1C#8) ∧ t.trace = s.trace ++ [⟨.write, o, v⟩]
    | _ => t.trace = s.trace

/-- R145, R252, R209, R54: only `SELECT` writes `EN`, as long as nothing is placed from outside between commands;
during a command nothing else can, and a reset of the block does not (R241). -/
def Obligations.OnlySelectChangesTheEnable : Prop :=
  ∀ s t : State, s.placed = none ∨ s.phase ≠ .ready → step s = .next t → s.phase ≠ .select ∨ s.resetRequest = true →
    t.en = s.en

/-- R18, R53, R24: no operation changes the parameters, and only accepting a `PROGRAM_CHAIN` changes a byte of the
table space. -/
def Obligations.OperationsLeaveParametersAndTable : Prop :=
  ∀ (i : Instr) (s t : State), exec i s = .next t →
    t.params = s.params ∧
      ((∀ c l n tbl, i = .programChain c l n tbl → s.phase ≠ .ready) →
        ∀ a, Memory.readByte t.table a = Memory.readByte s.table a)

/-- R29, R100: each operation writes at most the latches of its row of the access table, the trace and what the bus
access itself touches, and leaves every other latch, the table, the parameters and the host's side as they were. -/
def Obligations.OperationsWriteOnlyTheirLatches : Prop :=
  ∀ s t : State,
    (∀ m, exec (.isIdle m) s = .next t →
        t = { s with op := t.op, maxi := t.maxi, result := t.result, phase := t.phase }) ∧
      (∀ c l n tbl, exec (.programChain c l n tbl) s = .next t →
        t = { s with
              op := t.op, chainId := t.chainId, len := t.len, tableLen := t.tableLen, maxi := t.maxi
              result := t.result, phase := t.phase, table := t.table }) ∧
      (exec .validate s = .next t → t = { s with result := t.result, phase := t.phase }) ∧
      (exec .select s = .next t → t = { s with trace := t.trace, en := t.en, phase := t.phase }) ∧
      (exec .plan s = .next t →
        t = { s with fullLeft := t.fullLeft, res := t.res, idx := t.idx, phase := t.phase }) ∧
      (exec .chunk s = .next t →
        t = { s with fullLeft := t.fullLeft, res := t.res, curL := t.curL, result := t.result, phase := t.phase }) ∧
      (exec .check s = .next t →
        t = { s with
              budget := t.budget, poll := t.poll, verdict := t.verdict, result := t.result, phase := t.phase }) ∧
      (exec .poll s = .next t →
        t = { s with
              budget := t.budget, poll := t.poll, verdict := t.verdict, result := t.result, phase := t.phase
              trace := t.trace, answers := t.answers, reads := t.reads }) ∧
      (exec .hdr s = .next t →
        t = { s with wcnt := t.wcnt, rem := t.rem, phase := t.phase, trace := t.trace }) ∧
      (exec .dataw s = .next t →
        t = { s with idx := t.idx, wcnt := t.wcnt, phase := t.phase, trace := t.trace }) ∧
      (exec .remw s = .next t →
        t = { s with idx := t.idx, rem := t.rem, phase := t.phase, trace := t.trace, draws := t.draws })

/-- R201, R202, R207, R208, R211: `EngineTimeout` is raised only by the end of an idle check of a `PROGRAM_CHAIN`, and
`InvalidInput` only by `VALIDATE`; either way `PHASE` is `READY` and the bus is not written. -/
def Obligations.ErrorsAreRaisedOnlyWhereNamed : Prop :=
  ∀ (i : Instr) (s t : State), exec i s = .next t →
    (s.result ≠ .engineTimeout → t.result = .engineTimeout →
        (i = .check ∨ i = .poll) ∧ s.op = 1#1 ∧ t.phase = .ready ∧ t.poll = .timedOut ∧ t.verdict = .active ∧
          t.en = s.en ∧ (t.trace = s.trace ∨ ∃ v, t.trace = s.trace ++ [⟨.read, 0x00#8, v⟩])) ∧
      (s.result ≠ .invalidInput → t.result = .invalidInput →
        i = .validate ∧ t = { s with result := .invalidInput, phase := .ready })

/-! ### Reset -/

/-- R28, R240: after reset the block is `READY` with no result and an empty trace, and it issues no bus operation and
takes no step of its own as long as no command is offered. It is about the one state `State.reset`. -/
def Obligations.ResetBlockIsReadyAndSilent : Prop :=
  State.reset.phase = .ready ∧ State.reset.result = .none ∧ State.reset.trace = [] ∧
    ∀ k, Leads k State.reset State.reset

/-- R240, R241, and the model's reset input (log 15): a reset request abandons the command between two steps; the block
is `READY` with no result, and the register block, the table and the host's offers keep what they held. -/
def Obligations.ResetRequestAbandonsTheCommand : Prop :=
  ∀ s : State, s.resetRequest = true →
    ∃ t, step s = .next t ∧ t.phase = .ready ∧ t.result = .none ∧ t.trace = [] ∧ t.resetRequest = false ∧
      t.placed = none ∧ t.en = s.en ∧ t.params = s.params ∧ t.answers = s.answers ∧ t.reads = s.reads ∧ t.busHeld = s.busHeld ∧
      t.offers = s.offers ∧ ∀ a, Memory.readByte t.table a = Memory.readByte s.table a

/-- R178: the latches whose reset value is unspecified are never observed: two blocks that are `READY` and differ in
them only make the same bus operations and reach the same phases and results, step by step; and once a command has been
accepted, a finished `IS_IDLE` leaves the same verdict. -/
def Obligations.UnspecifiedLatchesAreNeverObserved : Prop :=
  ∀ (k : Nat) (s t s' : State), Undisturbed s → s.phase = .ready → SameButUnspecified s t → Leads k s s' →
    ∃ t', Leads k t t' ∧ SameButUnspecified s' t' ∧
      (s'.offers ≠ s.offers → s'.phase = .ready → s'.op = 0#1 → t'.op = 0#1 ∧ t'.verdict = s'.verdict)

/-! ### The invariant -/

/-- The state after reset meets the invariant. -/
def Obligations.ResetMeetsTheInvariant : Prop := Inv State.reset

/-- R11 to R17, R147, R148, R150, R174: every step keeps the invariant. -/
def Obligations.StepKeepsTheInvariant : Prop :=
  ∀ s t : State, Inv s → step s = .next t → Inv t

/-- R51, R58, R200: from a state that meets the invariant the block always has a next step: it neither faults nor is
refused, whatever the oracle answers. -/
def Obligations.InvariantStateHasANextStep : Prop :=
  ∀ s : State, Inv s → ∃ t, step s = .next t

/-- R148, R47: at every `DATAW` and `REMW`, `IDX < ceil32(LEN) <= TABLE_LEN`, and the word is there. -/
def Obligations.TableReadsStayInBounds : Prop :=
  ∀ s : State, Inv s → s.phase = .data ∨ s.phase = .remw →
    s.idx.toNat < (s.len.toNat + 31) / 32 ∧ (s.len.toNat + 31) / 32 ≤ s.tableLen.toNat ∧
      ∃ w, tableWord s.table s.idx.toNat = some w

/-- R24, R53 and the model's form of the table space (log 9): no operation takes the table space out of its canonical
form. -/
def Obligations.TableSpaceStaysCanonical : Prop :=
  ∀ (i : Instr) (s t : State), Memory.wf s.table → exec i s = .next t → Memory.wf t.table

/-! ### Whole idle checks and whole commands -/

/-- R118: an idle check with budget `m` ends `IDLE` after `j` reads if the `j`-th answer is the first that is not busy
and `j <= m`, and otherwise `ACTIVE` after exactly `m` reads; it makes no write. -/
def Obligations.IdleCheckCountsItsReads : Prop :=
  ∀ (m : Nat) (f : Flow),
    let ans (n : Nat) : Word := nextAnswer (f.answers.drop n) (f.reads + n)
    let readUpTo (n : Nat) : Flow :=
      { f with
        trace := f.trace ++ (List.range n).map (fun n => ⟨.read, 0x00#8, ans n⟩)
        answers := f.answers.drop n
        reads := f.reads + n }
    (∀ j, 1 ≤ j → j ≤ m → busy (ans (j - 1)) = false → (∀ n, n < j - 1 → busy (ans n) = true) →
        idleCheck m f = (.idle, readUpTo j)) ∧
      ((∀ n, n < m → busy (ans n) = true) → idleCheck m f = (.active, readUpTo m))

/-- R114: the steps `CHECK` and `POLL` agree with the idle check as a whole: from `MON_START` the block comes, after at
most `MAXI + 1` steps, to the end of the check, with the verdict, the trace and the answers left over that the
algorithm gives. -/
def Obligations.MonitorAgreesWithIdleCheck : Prop :=
  ∀ s : State, Undisturbed s → s.phase = .monStart →
    ∃ k t, k ≤ s.maxi.toNat + 1 ∧ Leads k s t ∧ t.verdict = (idleCheck s.maxi.toNat s.flow).1 ∧
      t.flow = (idleCheck s.maxi.toNat s.flow).2 ∧
      (t.verdict = .idle → t.poll = .idle) ∧ (t.verdict = .active → t.poll = .timedOut) ∧
      (s.op = 0#1 → t.phase = .ready ∧ t.result = .ok) ∧
      (s.op = 1#1 → t.verdict = .idle → t.phase = .hdr ∧ t.result = s.result) ∧
      (s.op = 1#1 → t.verdict = .active → t.phase = .ready ∧ t.result = .engineTimeout)

/-- R117, R180, R220: an `IS_IDLE` command ends with `OK`, after at most `max_iterations + 2` steps, with the verdict of
one idle check under the host's budget; its bus operations are at most that many status reads and no write. -/
def Obligations.IsIdleCommandRunsOneCheck : Prop :=
  ∀ (s : State) (r : CmdRecord), Offered r s → r.op = 0#1 →
    ∃ k t, EndsAfter k s t ∧ k ≤ r.maxIterations.toNat + 2 ∧ t.result = .ok ∧
      t.verdict = (idleCheck r.maxIterations.toNat s.flow).1 ∧ t.flow = (idleCheck r.maxIterations.toNat s.flow).2 ∧
      (newEvents s t).length ≤ r.maxIterations.toNat ∧ (∀ e ∈ newEvents s t, e.dir = .read ∧ e.offset = 0x00#8) ∧
      t.en = s.en ∧ t.offers = s.offers.tail

/-- R130: the steps agree with the algorithm as a whole: a `PROGRAM_CHAIN` command ends, with the result and the trace
the algorithm gives for its table, whatever the oracle answers; `EN` is written exactly when the inputs are valid. -/
def Obligations.ProgramChainAgreesWithTheAlgorithm : Prop :=
  ∀ (s : State) (r : CmdRecord) (tbl : Nat → Word), Offered r s → r.op = 1#1 → (decodeCmd r).wellFormed = true →
    (∀ i w, r.table[i]? = some w → tbl i = w) →
    ∃ t, CommandEnds s t ∧
      (t.result, t.flow) = programChain s.params r.chainId r.lengthInBits r.tableLen tbl s.flow ∧
      t.offers = s.offers.tail ∧
      t.en =
        (if 3 < r.chainId.toNat ∨ r.tableLen.toNat < (r.lengthInBits.toNat + 31) / 32 then s.en
        else BitVec.ofNat 32 (2 ^ r.chainId.toNat))

/-- R180: a `PROGRAM_CHAIN` ends after a bounded number of steps: 5, and for each chunk at most `MAX_ITER` polls and
seven steps more. -/
def Obligations.ProgramChainEndsWithinItsBound : Prop :=
  ∀ (s : State) (r : CmdRecord), Offered r s → r.op = 1#1 → (decodeCmd r).wellFormed = true →
    ∃ k t, EndsAfter k s t ∧ k ≤ 5 + chunkCount r.lengthInBits.toNat * (s.params.maxIter.toNat + 7)

/-- R56, R45: for a command that ends `OK`, the chain bits of its trace are exactly the first `LEN` bits of the table,
whatever the pad bits were. -/
def Obligations.OkCommandSendsExactlyTheTable : Prop :=
  ∀ (s t : State) (r : CmdRecord) (tbl : Nat → Word), Offered r s → r.op = 1#1 → (decodeCmd r).wellFormed = true →
    (∀ i w, r.table[i]? = some w → tbl i = w) → CommandEnds s t → t.result = .ok →
    chainBits (newEvents s t) = tableBits tbl r.lengthInBits.toNat

/-- R146, R147, R81: for a command that ends `OK` the payload lengths of its packets add up to exactly `LEN`; each is 1
to 128 bits and has the payload bytes its length says. -/
def Obligations.OkCommandPacketsAddUpToTheLength : Prop :=
  ∀ (s t : State) (r : CmdRecord), Offered r s → r.op = 1#1 → (decodeCmd r).wellFormed = true → CommandEnds s t →
    t.result = .ok →
    ((packets (newEvents s t)).map Packet.bits).sum = r.lengthInBits.toNat ∧
      ∀ p ∈ packets (newEvents s t), 1 ≤ p.bits ∧ p.bits ≤ 128 ∧ p.payload.length = payloadBytes p.bits

/-- R149, R136: the operation counts of a command that ends `OK`. -/
def Obligations.OkCommandOperationCounts : Prop :=
  ∀ (s t : State) (r : CmdRecord), Offered r s → r.op = 1#1 → (decodeCmd r).wellFormed = true → CommandEnds s t →
    t.result = .ok →
    let n := r.lengthInBits.toNat
    let ev := newEvents s t
    countWrites .en ev = 1 ∧ (packets ev).length = chunkCount n ∧
      chunkCount n ≤ countReads ev ∧ countReads ev ≤ chunkCount n * s.params.maxIter.toNat ∧
      countWrites .fifo1 ev + countWrites .fifo2 ev + countWrites .fifo4 ev =
        5 * (n / 128) +
          (if n % 128 = 0 then 0 else 1 + n % 128 / 32 + (if n % 32 = 0 then 0 else 1))

/-- R137, R207, R209: a command that ends `ENGINE_TIMEOUT` has sent a number of full chunks, each of them whole, and
nothing of the chunk whose check failed; `EN` still selects the command's chain. -/
def Obligations.TimeoutIsPreciseAtAChunkBoundary : Prop :=
  ∀ (s t : State) (r : CmdRecord) (tbl : Nat → Word), Offered r s → r.op = 1#1 → (decodeCmd r).wellFormed = true →
    (∀ i w, r.table[i]? = some w → tbl i = w) → CommandEnds s t → t.result = .engineTimeout →
    (packets (newEvents s t)).length < chunkCount r.lengthInBits.toNat ∧
      (∀ p ∈ packets (newEvents s t), p.bits = 128 ∧ p.payload.length = 16) ∧
      chainBits (newEvents s t) = tableBits tbl (128 * (packets (newEvents s t)).length) ∧
      t.en = BitVec.ofNat 32 (2 ^ r.chainId.toNat)

/-- R208, R209: a `PROGRAM_CHAIN` with an invalid chain or too short a table ends `INVALID_INPUT` after two steps; it
has issued no bus operation and the environment is as before. -/
def Obligations.InvalidCommandTouchesNothing : Prop :=
  ∀ (s : State) (r : CmdRecord), Offered r s → r.op = 1#1 →
    3 < r.chainId.toNat ∨ r.tableLen.toNat < (r.lengthInBits.toNat + 31) / 32 →
    ∃ t, EndsAfter 2 s t ∧ t.result = .invalidInput ∧ t.phase = .ready ∧ t.flow = s.flow ∧ t.en = s.en

/-- R143: `LEN = 0` is a no-op success: the trace is the single `WR_EN`, whatever the status oracle would answer. -/
def Obligations.ZeroLengthOnlySelectsTheChain : Prop :=
  ∀ (s : State) (r : CmdRecord), Offered r s → r.op = 1#1 → r.lengthInBits = 0#32 → r.chainId.toNat ≤ 3 →
    ∃ t, EndsAfter 5 s t ∧ t.result = .ok ∧
      t.flow = { s.flow with
                 trace := s.trace ++ [⟨.write, 0x04#8, BitVec.ofNat 32 (2 ^ r.chainId.toNat)⟩] }

/-- R257: with `MAX_ITER = 0` every valid `PROGRAM_CHAIN` with `LEN > 0` fails with `EngineTimeout` after the `EN` write
and no status read. -/
def Obligations.ZeroBudgetTimesOutAfterSelect : Prop :=
  ∀ (s : State) (r : CmdRecord), Offered r s → r.op = 1#1 → s.params.maxIter = 0#32 → r.chainId.toNat ≤ 3 →
    (r.lengthInBits.toNat + 31) / 32 ≤ r.tableLen.toNat → 0 < r.lengthInBits.toNat →
    ∃ t, EndsAfter 6 s t ∧ t.result = .engineTimeout ∧ t.verdict = .active ∧
      t.flow = { s.flow with
                 trace := s.trace ++ [⟨.write, 0x04#8, BitVec.ofNat 32 (2 ^ r.chainId.toNat)⟩] }
end

