-- ==== Sys2Proof/Laws/Memory.lean ====
section
/-! SUPPORT. The table space: every operation that makes or reads it, said once. The only operation that makes a table
space is `Memory.ofWords` (the block has no write path to it, 10_state.md R24). -/

namespace Sys2Proof.Machine

@[simp] theorem Memory.readByte_nil (a : Nat) : Memory.readByte [] a = none := rfl

theorem Memory.readByte_cons (k : Nat) (b : Byte) (m : Memory) (a : Nat) :
    Memory.readByte ((k, b) :: m) a = if k = a then some b else Memory.readByte m a := rfl

@[simp] theorem tableCells_nil (i : Nat) : tableCells i [] = [] := rfl

theorem tableCells_cons (i : Nat) (w : Word) (ws : List Word) :
    tableCells i (w :: ws) =
      (4 * i, w.extractLsb' 0 8) :: (4 * i + 1, w.extractLsb' 8 8) :: (4 * i + 2, w.extractLsb' 16 8) ::
        (4 * i + 3, w.extractLsb' 24 8) :: tableCells (i + 1) ws := rfl

/-- The cells of words from index `i` on lie at `4i` or above. -/
theorem le_of_mem_tableCells (ws : List Word) : ∀ (i : Nat) (c : Host.Cell), c ∈ tableCells i ws → 4 * i ≤ c.1 := by
  induction ws with
  | nil => intro i c h; simp at h
  | cons w ws ih =>
    intro i c h
    rw [tableCells_cons] at h
    rcases List.mem_cons.1 h with rfl | h
    · exact Nat.le_refl _
    rcases List.mem_cons.1 h with rfl | h
    · exact Nat.le_add_right _ _
    rcases List.mem_cons.1 h with rfl | h
    · exact Nat.le_add_right _ _
    rcases List.mem_cons.1 h with rfl | h
    · exact Nat.le_add_right _ _
    · have := ih (i + 1) c h
      omega

/-- The cells of a table stand in rising order. -/
theorem tableCells_wf (ws : List Word) : ∀ i, Memory.wf (tableCells i ws) := by
  induction ws with
  | nil => intro i; exact List.Pairwise.nil
  | cons w ws ih =>
    intro i
    have above : ∀ c ∈ tableCells (i + 1) ws, 4 * i + 3 < c.1 := fun c h => by
      have := le_of_mem_tableCells ws (i + 1) c h
      omega
    rw [tableCells_cons]
    simp only [Memory.wf, List.pairwise_cons, List.mem_cons]
    refine ⟨?_, ?_, ?_, above, ih (i + 1)⟩
    · rintro c (rfl | rfl | rfl | h)
      · exact Nat.lt_succ_self _
      · exact Nat.lt_add_of_pos_right (by decide)
      · exact Nat.lt_add_of_pos_right (by decide)
      · have := above c h
        exact Nat.lt_of_le_of_lt (Nat.le_add_right _ 3) this
    · rintro c (rfl | rfl | h)
      · exact Nat.lt_succ_self _
      · exact Nat.add_lt_add_left (by decide) _
      · have := above c h
        exact Nat.lt_of_le_of_lt (Nat.add_le_add_left (by decide) _) this
    · rintro c (rfl | h)
      · exact Nat.lt_succ_self _
      · have := above c h
        exact Nat.lt_of_le_of_lt (Nat.add_le_add_left (by decide) _) this

/-- Supplying a table gives a table space in canonical form. -/
theorem Memory.ofWords_wf (ws : List Word) : Memory.wf (Memory.ofWords ws) := tableCells_wf ws 0

/-- The table space of the state after reset is in canonical form. -/
theorem reset_table_wf : Memory.wf State.reset.table := List.Pairwise.nil

end Sys2Proof.Machine
end

