-- ==== Sys2Proof/Laws/State.lean ====
section
/-! SUPPORT. One lemma per field for each small update of the state, so that no proof unfolds a record update. -/

namespace Sys2Proof.Machine

/-! ### `State.goto` -/

@[simp] theorem State.goto_op (s : State) (p : Phase) : (s.goto p).op = s.op := rfl
@[simp] theorem State.goto_chainId (s : State) (p : Phase) : (s.goto p).chainId = s.chainId := rfl
@[simp] theorem State.goto_len (s : State) (p : Phase) : (s.goto p).len = s.len := rfl
@[simp] theorem State.goto_tableLen (s : State) (p : Phase) : (s.goto p).tableLen = s.tableLen := rfl
@[simp] theorem State.goto_maxi (s : State) (p : Phase) : (s.goto p).maxi = s.maxi := rfl
@[simp] theorem State.goto_fullLeft (s : State) (p : Phase) : (s.goto p).fullLeft = s.fullLeft := rfl
@[simp] theorem State.goto_res (s : State) (p : Phase) : (s.goto p).res = s.res := rfl
@[simp] theorem State.goto_idx (s : State) (p : Phase) : (s.goto p).idx = s.idx := rfl
@[simp] theorem State.goto_curL (s : State) (p : Phase) : (s.goto p).curL = s.curL := rfl
@[simp] theorem State.goto_wcnt (s : State) (p : Phase) : (s.goto p).wcnt = s.wcnt := rfl
@[simp] theorem State.goto_rem (s : State) (p : Phase) : (s.goto p).rem = s.rem := rfl
@[simp] theorem State.goto_budget (s : State) (p : Phase) : (s.goto p).budget = s.budget := rfl
@[simp] theorem State.goto_phase (s : State) (p : Phase) : (s.goto p).phase = p := rfl
@[simp] theorem State.goto_poll (s : State) (p : Phase) : (s.goto p).poll = s.poll := rfl
@[simp] theorem State.goto_result (s : State) (p : Phase) : (s.goto p).result = s.result := rfl
@[simp] theorem State.goto_verdict (s : State) (p : Phase) : (s.goto p).verdict = s.verdict := rfl
@[simp] theorem State.goto_params (s : State) (p : Phase) : (s.goto p).params = s.params := rfl
@[simp] theorem State.goto_table (s : State) (p : Phase) : (s.goto p).table = s.table := rfl
@[simp] theorem State.goto_trace (s : State) (p : Phase) : (s.goto p).trace = s.trace := rfl
@[simp] theorem State.goto_en (s : State) (p : Phase) : (s.goto p).en = s.en := rfl
@[simp] theorem State.goto_answers (s : State) (p : Phase) : (s.goto p).answers = s.answers := rfl
@[simp] theorem State.goto_reads (s : State) (p : Phase) : (s.goto p).reads = s.reads := rfl
@[simp] theorem State.goto_draws (s : State) (p : Phase) : (s.goto p).draws = s.draws := rfl
@[simp] theorem State.goto_busHeld (s : State) (p : Phase) : (s.goto p).busHeld = s.busHeld := rfl
@[simp] theorem State.goto_offers (s : State) (p : Phase) : (s.goto p).offers = s.offers := rfl
@[simp] theorem State.goto_resetRequest (s : State) (p : Phase) : (s.goto p).resetRequest = s.resetRequest := rfl
@[simp] theorem State.goto_placed (s : State) (p : Phase) : (s.goto p).placed = s.placed := rfl

/-! ### `State.record` -/

@[simp] theorem State.record_op (s : State) (e : BusEvent) : (s.record e).op = s.op := rfl
@[simp] theorem State.record_chainId (s : State) (e : BusEvent) : (s.record e).chainId = s.chainId := rfl
@[simp] theorem State.record_len (s : State) (e : BusEvent) : (s.record e).len = s.len := rfl
@[simp] theorem State.record_tableLen (s : State) (e : BusEvent) : (s.record e).tableLen = s.tableLen := rfl
@[simp] theorem State.record_maxi (s : State) (e : BusEvent) : (s.record e).maxi = s.maxi := rfl
@[simp] theorem State.record_fullLeft (s : State) (e : BusEvent) : (s.record e).fullLeft = s.fullLeft := rfl
@[simp] theorem State.record_res (s : State) (e : BusEvent) : (s.record e).res = s.res := rfl
@[simp] theorem State.record_idx (s : State) (e : BusEvent) : (s.record e).idx = s.idx := rfl
@[simp] theorem State.record_curL (s : State) (e : BusEvent) : (s.record e).curL = s.curL := rfl
@[simp] theorem State.record_wcnt (s : State) (e : BusEvent) : (s.record e).wcnt = s.wcnt := rfl
@[simp] theorem State.record_rem (s : State) (e : BusEvent) : (s.record e).rem = s.rem := rfl
@[simp] theorem State.record_budget (s : State) (e : BusEvent) : (s.record e).budget = s.budget := rfl
@[simp] theorem State.record_phase (s : State) (e : BusEvent) : (s.record e).phase = s.phase := rfl
@[simp] theorem State.record_poll (s : State) (e : BusEvent) : (s.record e).poll = s.poll := rfl
@[simp] theorem State.record_result (s : State) (e : BusEvent) : (s.record e).result = s.result := rfl
@[simp] theorem State.record_verdict (s : State) (e : BusEvent) : (s.record e).verdict = s.verdict := rfl
@[simp] theorem State.record_params (s : State) (e : BusEvent) : (s.record e).params = s.params := rfl
@[simp] theorem State.record_table (s : State) (e : BusEvent) : (s.record e).table = s.table := rfl
@[simp] theorem State.record_trace (s : State) (e : BusEvent) : (s.record e).trace = s.trace ++ [e] := rfl
@[simp] theorem State.record_en (s : State) (e : BusEvent) : (s.record e).en = s.en := rfl
@[simp] theorem State.record_answers (s : State) (e : BusEvent) : (s.record e).answers = s.answers := rfl
@[simp] theorem State.record_reads (s : State) (e : BusEvent) : (s.record e).reads = s.reads := rfl
@[simp] theorem State.record_draws (s : State) (e : BusEvent) : (s.record e).draws = s.draws := rfl
@[simp] theorem State.record_busHeld (s : State) (e : BusEvent) : (s.record e).busHeld = s.busHeld := rfl
@[simp] theorem State.record_offers (s : State) (e : BusEvent) : (s.record e).offers = s.offers := rfl
@[simp] theorem State.record_resetRequest (s : State) (e : BusEvent) : (s.record e).resetRequest = s.resetRequest := rfl
@[simp] theorem State.record_placed (s : State) (e : BusEvent) : (s.record e).placed = s.placed := rfl

/-! ### `State.readStat` -/

@[simp] theorem State.readStat_op (s : State) : (s.readStat).op = s.op := rfl
@[simp] theorem State.readStat_chainId (s : State) : (s.readStat).chainId = s.chainId := rfl
@[simp] theorem State.readStat_len (s : State) : (s.readStat).len = s.len := rfl
@[simp] theorem State.readStat_tableLen (s : State) : (s.readStat).tableLen = s.tableLen := rfl
@[simp] theorem State.readStat_maxi (s : State) : (s.readStat).maxi = s.maxi := rfl
@[simp] theorem State.readStat_fullLeft (s : State) : (s.readStat).fullLeft = s.fullLeft := rfl
@[simp] theorem State.readStat_res (s : State) : (s.readStat).res = s.res := rfl
@[simp] theorem State.readStat_idx (s : State) : (s.readStat).idx = s.idx := rfl
@[simp] theorem State.readStat_curL (s : State) : (s.readStat).curL = s.curL := rfl
@[simp] theorem State.readStat_wcnt (s : State) : (s.readStat).wcnt = s.wcnt := rfl
@[simp] theorem State.readStat_rem (s : State) : (s.readStat).rem = s.rem := rfl
@[simp] theorem State.readStat_budget (s : State) : (s.readStat).budget = s.budget := rfl
@[simp] theorem State.readStat_phase (s : State) : (s.readStat).phase = s.phase := rfl
@[simp] theorem State.readStat_poll (s : State) : (s.readStat).poll = s.poll := rfl
@[simp] theorem State.readStat_result (s : State) : (s.readStat).result = s.result := rfl
@[simp] theorem State.readStat_verdict (s : State) : (s.readStat).verdict = s.verdict := rfl
@[simp] theorem State.readStat_params (s : State) : (s.readStat).params = s.params := rfl
@[simp] theorem State.readStat_table (s : State) : (s.readStat).table = s.table := rfl
@[simp] theorem State.readStat_trace (s : State) : (s.readStat).trace = s.trace ++ [⟨.read, Reg.stat.offset, s.statusAnswer⟩] := rfl
@[simp] theorem State.readStat_en (s : State) : (s.readStat).en = s.en := rfl
@[simp] theorem State.readStat_answers (s : State) : (s.readStat).answers = s.answers.tail := rfl
@[simp] theorem State.readStat_reads (s : State) : (s.readStat).reads = s.reads + 1 := rfl
@[simp] theorem State.readStat_draws (s : State) : (s.readStat).draws = s.draws := rfl
@[simp] theorem State.readStat_busHeld (s : State) : (s.readStat).busHeld = s.busHeld := rfl
@[simp] theorem State.readStat_offers (s : State) : (s.readStat).offers = s.offers := rfl
@[simp] theorem State.readStat_resetRequest (s : State) : (s.readStat).resetRequest = s.resetRequest := rfl
@[simp] theorem State.readStat_placed (s : State) : (s.readStat).placed = s.placed := rfl

/-! ### `State.writeFifo` -/

@[simp] theorem State.writeFifo_op (s : State) (r : Reg) (v : Word) : (s.writeFifo r v).op = s.op := rfl
@[simp] theorem State.writeFifo_chainId (s : State) (r : Reg) (v : Word) : (s.writeFifo r v).chainId = s.chainId := rfl
@[simp] theorem State.writeFifo_len (s : State) (r : Reg) (v : Word) : (s.writeFifo r v).len = s.len := rfl
@[simp] theorem State.writeFifo_tableLen (s : State) (r : Reg) (v : Word) : (s.writeFifo r v).tableLen = s.tableLen := rfl
@[simp] theorem State.writeFifo_maxi (s : State) (r : Reg) (v : Word) : (s.writeFifo r v).maxi = s.maxi := rfl
@[simp] theorem State.writeFifo_fullLeft (s : State) (r : Reg) (v : Word) : (s.writeFifo r v).fullLeft = s.fullLeft := rfl
@[simp] theorem State.writeFifo_res (s : State) (r : Reg) (v : Word) : (s.writeFifo r v).res = s.res := rfl
@[simp] theorem State.writeFifo_idx (s : State) (r : Reg) (v : Word) : (s.writeFifo r v).idx = s.idx := rfl
@[simp] theorem State.writeFifo_curL (s : State) (r : Reg) (v : Word) : (s.writeFifo r v).curL = s.curL := rfl
@[simp] theorem State.writeFifo_wcnt (s : State) (r : Reg) (v : Word) : (s.writeFifo r v).wcnt = s.wcnt := rfl
@[simp] theorem State.writeFifo_rem (s : State) (r : Reg) (v : Word) : (s.writeFifo r v).rem = s.rem := rfl
@[simp] theorem State.writeFifo_budget (s : State) (r : Reg) (v : Word) : (s.writeFifo r v).budget = s.budget := rfl
@[simp] theorem State.writeFifo_phase (s : State) (r : Reg) (v : Word) : (s.writeFifo r v).phase = s.phase := rfl
@[simp] theorem State.writeFifo_poll (s : State) (r : Reg) (v : Word) : (s.writeFifo r v).poll = s.poll := rfl
@[simp] theorem State.writeFifo_result (s : State) (r : Reg) (v : Word) : (s.writeFifo r v).result = s.result := rfl
@[simp] theorem State.writeFifo_verdict (s : State) (r : Reg) (v : Word) : (s.writeFifo r v).verdict = s.verdict := rfl
@[simp] theorem State.writeFifo_params (s : State) (r : Reg) (v : Word) : (s.writeFifo r v).params = s.params := rfl
@[simp] theorem State.writeFifo_table (s : State) (r : Reg) (v : Word) : (s.writeFifo r v).table = s.table := rfl
@[simp] theorem State.writeFifo_trace (s : State) (r : Reg) (v : Word) : (s.writeFifo r v).trace = s.trace ++ [⟨.write, r.offset, v⟩] := rfl
@[simp] theorem State.writeFifo_en (s : State) (r : Reg) (v : Word) : (s.writeFifo r v).en = s.en := rfl
@[simp] theorem State.writeFifo_answers (s : State) (r : Reg) (v : Word) : (s.writeFifo r v).answers = s.answers := rfl
@[simp] theorem State.writeFifo_reads (s : State) (r : Reg) (v : Word) : (s.writeFifo r v).reads = s.reads := rfl
@[simp] theorem State.writeFifo_draws (s : State) (r : Reg) (v : Word) : (s.writeFifo r v).draws = s.draws := rfl
@[simp] theorem State.writeFifo_busHeld (s : State) (r : Reg) (v : Word) : (s.writeFifo r v).busHeld = s.busHeld := rfl
@[simp] theorem State.writeFifo_offers (s : State) (r : Reg) (v : Word) : (s.writeFifo r v).offers = s.offers := rfl
@[simp] theorem State.writeFifo_resetRequest (s : State) (r : Reg) (v : Word) : (s.writeFifo r v).resetRequest = s.resetRequest := rfl
@[simp] theorem State.writeFifo_placed (s : State) (r : Reg) (v : Word) : (s.writeFifo r v).placed = s.placed := rfl

/-! ### `State.writeEn` -/

@[simp] theorem State.writeEn_op (s : State) (v : Word) : (s.writeEn v).op = s.op := rfl
@[simp] theorem State.writeEn_chainId (s : State) (v : Word) : (s.writeEn v).chainId = s.chainId := rfl
@[simp] theorem State.writeEn_len (s : State) (v : Word) : (s.writeEn v).len = s.len := rfl
@[simp] theorem State.writeEn_tableLen (s : State) (v : Word) : (s.writeEn v).tableLen = s.tableLen := rfl
@[simp] theorem State.writeEn_maxi (s : State) (v : Word) : (s.writeEn v).maxi = s.maxi := rfl
@[simp] theorem State.writeEn_fullLeft (s : State) (v : Word) : (s.writeEn v).fullLeft = s.fullLeft := rfl
@[simp] theorem State.writeEn_res (s : State) (v : Word) : (s.writeEn v).res = s.res := rfl
@[simp] theorem State.writeEn_idx (s : State) (v : Word) : (s.writeEn v).idx = s.idx := rfl
@[simp] theorem State.writeEn_curL (s : State) (v : Word) : (s.writeEn v).curL = s.curL := rfl
@[simp] theorem State.writeEn_wcnt (s : State) (v : Word) : (s.writeEn v).wcnt = s.wcnt := rfl
@[simp] theorem State.writeEn_rem (s : State) (v : Word) : (s.writeEn v).rem = s.rem := rfl
@[simp] theorem State.writeEn_budget (s : State) (v : Word) : (s.writeEn v).budget = s.budget := rfl
@[simp] theorem State.writeEn_phase (s : State) (v : Word) : (s.writeEn v).phase = s.phase := rfl
@[simp] theorem State.writeEn_poll (s : State) (v : Word) : (s.writeEn v).poll = s.poll := rfl
@[simp] theorem State.writeEn_result (s : State) (v : Word) : (s.writeEn v).result = s.result := rfl
@[simp] theorem State.writeEn_verdict (s : State) (v : Word) : (s.writeEn v).verdict = s.verdict := rfl
@[simp] theorem State.writeEn_params (s : State) (v : Word) : (s.writeEn v).params = s.params := rfl
@[simp] theorem State.writeEn_table (s : State) (v : Word) : (s.writeEn v).table = s.table := rfl
@[simp] theorem State.writeEn_trace (s : State) (v : Word) : (s.writeEn v).trace = s.trace ++ [⟨.write, Reg.en.offset, v⟩] := rfl
@[simp] theorem State.writeEn_en (s : State) (v : Word) : (s.writeEn v).en = v := rfl
@[simp] theorem State.writeEn_answers (s : State) (v : Word) : (s.writeEn v).answers = s.answers := rfl
@[simp] theorem State.writeEn_reads (s : State) (v : Word) : (s.writeEn v).reads = s.reads := rfl
@[simp] theorem State.writeEn_draws (s : State) (v : Word) : (s.writeEn v).draws = s.draws := rfl
@[simp] theorem State.writeEn_busHeld (s : State) (v : Word) : (s.writeEn v).busHeld = s.busHeld := rfl
@[simp] theorem State.writeEn_offers (s : State) (v : Word) : (s.writeEn v).offers = s.offers := rfl
@[simp] theorem State.writeEn_resetRequest (s : State) (v : Word) : (s.writeEn v).resetRequest = s.resetRequest := rfl
@[simp] theorem State.writeEn_placed (s : State) (v : Word) : (s.writeEn v).placed = s.placed := rfl

/-! ### `State.raise` -/

@[simp] theorem State.raise_op (s : State) (e : ErrorKind) : (s.raise e).op = s.op := rfl
@[simp] theorem State.raise_chainId (s : State) (e : ErrorKind) : (s.raise e).chainId = s.chainId := rfl
@[simp] theorem State.raise_len (s : State) (e : ErrorKind) : (s.raise e).len = s.len := rfl
@[simp] theorem State.raise_tableLen (s : State) (e : ErrorKind) : (s.raise e).tableLen = s.tableLen := rfl
@[simp] theorem State.raise_maxi (s : State) (e : ErrorKind) : (s.raise e).maxi = s.maxi := rfl
@[simp] theorem State.raise_fullLeft (s : State) (e : ErrorKind) : (s.raise e).fullLeft = s.fullLeft := rfl
@[simp] theorem State.raise_res (s : State) (e : ErrorKind) : (s.raise e).res = s.res := rfl
@[simp] theorem State.raise_idx (s : State) (e : ErrorKind) : (s.raise e).idx = s.idx := rfl
@[simp] theorem State.raise_curL (s : State) (e : ErrorKind) : (s.raise e).curL = s.curL := rfl
@[simp] theorem State.raise_wcnt (s : State) (e : ErrorKind) : (s.raise e).wcnt = s.wcnt := rfl
@[simp] theorem State.raise_rem (s : State) (e : ErrorKind) : (s.raise e).rem = s.rem := rfl
@[simp] theorem State.raise_budget (s : State) (e : ErrorKind) : (s.raise e).budget = s.budget := rfl
@[simp] theorem State.raise_phase (s : State) (e : ErrorKind) : (s.raise e).phase = .ready := rfl
@[simp] theorem State.raise_poll (s : State) (e : ErrorKind) : (s.raise e).poll = s.poll := rfl
@[simp] theorem State.raise_result (s : State) (e : ErrorKind) : (s.raise e).result = e.result := rfl
@[simp] theorem State.raise_verdict (s : State) (e : ErrorKind) : (s.raise e).verdict = s.verdict := rfl
@[simp] theorem State.raise_params (s : State) (e : ErrorKind) : (s.raise e).params = s.params := rfl
@[simp] theorem State.raise_table (s : State) (e : ErrorKind) : (s.raise e).table = s.table := rfl
@[simp] theorem State.raise_trace (s : State) (e : ErrorKind) : (s.raise e).trace = s.trace := rfl
@[simp] theorem State.raise_en (s : State) (e : ErrorKind) : (s.raise e).en = s.en := rfl
@[simp] theorem State.raise_answers (s : State) (e : ErrorKind) : (s.raise e).answers = s.answers := rfl
@[simp] theorem State.raise_reads (s : State) (e : ErrorKind) : (s.raise e).reads = s.reads := rfl
@[simp] theorem State.raise_draws (s : State) (e : ErrorKind) : (s.raise e).draws = s.draws := rfl
@[simp] theorem State.raise_busHeld (s : State) (e : ErrorKind) : (s.raise e).busHeld = s.busHeld := rfl
@[simp] theorem State.raise_offers (s : State) (e : ErrorKind) : (s.raise e).offers = s.offers := rfl
@[simp] theorem State.raise_resetRequest (s : State) (e : ErrorKind) : (s.raise e).resetRequest = s.resetRequest := rfl
@[simp] theorem State.raise_placed (s : State) (e : ErrorKind) : (s.raise e).placed = s.placed := rfl

/-! ### `State.finish` -/

@[simp] theorem State.finish_op (s : State) : (s.finish).op = s.op := rfl
@[simp] theorem State.finish_chainId (s : State) : (s.finish).chainId = s.chainId := rfl
@[simp] theorem State.finish_len (s : State) : (s.finish).len = s.len := rfl
@[simp] theorem State.finish_tableLen (s : State) : (s.finish).tableLen = s.tableLen := rfl
@[simp] theorem State.finish_maxi (s : State) : (s.finish).maxi = s.maxi := rfl
@[simp] theorem State.finish_fullLeft (s : State) : (s.finish).fullLeft = s.fullLeft := rfl
@[simp] theorem State.finish_res (s : State) : (s.finish).res = s.res := rfl
@[simp] theorem State.finish_idx (s : State) : (s.finish).idx = s.idx := rfl
@[simp] theorem State.finish_curL (s : State) : (s.finish).curL = s.curL := rfl
@[simp] theorem State.finish_wcnt (s : State) : (s.finish).wcnt = s.wcnt := rfl
@[simp] theorem State.finish_rem (s : State) : (s.finish).rem = s.rem := rfl
@[simp] theorem State.finish_budget (s : State) : (s.finish).budget = s.budget := rfl
@[simp] theorem State.finish_phase (s : State) : (s.finish).phase = .ready := rfl
@[simp] theorem State.finish_poll (s : State) : (s.finish).poll = s.poll := rfl
@[simp] theorem State.finish_result (s : State) : (s.finish).result = .ok := rfl
@[simp] theorem State.finish_verdict (s : State) : (s.finish).verdict = s.verdict := rfl
@[simp] theorem State.finish_params (s : State) : (s.finish).params = s.params := rfl
@[simp] theorem State.finish_table (s : State) : (s.finish).table = s.table := rfl
@[simp] theorem State.finish_trace (s : State) : (s.finish).trace = s.trace := rfl
@[simp] theorem State.finish_en (s : State) : (s.finish).en = s.en := rfl
@[simp] theorem State.finish_answers (s : State) : (s.finish).answers = s.answers := rfl
@[simp] theorem State.finish_reads (s : State) : (s.finish).reads = s.reads := rfl
@[simp] theorem State.finish_draws (s : State) : (s.finish).draws = s.draws := rfl
@[simp] theorem State.finish_busHeld (s : State) : (s.finish).busHeld = s.busHeld := rfl
@[simp] theorem State.finish_offers (s : State) : (s.finish).offers = s.offers := rfl
@[simp] theorem State.finish_resetRequest (s : State) : (s.finish).resetRequest = s.resetRequest := rfl
@[simp] theorem State.finish_placed (s : State) : (s.finish).placed = s.placed := rfl

end Sys2Proof.Machine
end

