-- ==== Sys2Proof/Laws/Ops.lean ====
section
/-! SUPPORT. For each shared operation, and for the operations of the table that branch, one lemma that says everything
it can do; proofs cite these and unfold nothing. -/

namespace Sys2Proof.Machine

/-! ### Table reads and answers -/

/-- What `tblRead` answers with: a word, inside the declared length. -/
theorem tblRead_ok {s : State} {i : Nat} {w : Word} :
    tblRead s i = .ok w ↔ i < s.tableLen.toNat ∧ tableWord s.table i = some w := by
  unfold tblRead
  split
  · next h => split <;> simp_all
  · next h => simp [h]

/-- Outside the declared length `tblRead` stops. -/
theorem tblRead_outside {s : State} {i : Nat} (h : s.tableLen.toNat ≤ i) :
    tblRead s i = .error (.tableIndexOutside i) := by
  simp [tblRead, Nat.not_lt.2 h]

/-- Inside the declared length, where the host supplied no word, `tblRead` stops. -/
theorem tblRead_missing {s : State} {i : Nat} (h : i < s.tableLen.toNat) (hw : tableWord s.table i = none) :
    tblRead s i = .error (.tableWordNotSupplied i) := by
  simp [tblRead, h, hw]

@[simp] theorem nextAnswer_cons (v : Word) (rest : List Word) (n : Nat) : nextAnswer (v :: rest) n = v := rfl

@[simp] theorem nextAnswer_nil (n : Nat) : nextAnswer [] n = Config.statusWord n := rfl

/-! ### The end of a check -/

theorem endOfCheck_isIdle {s : State} (p : PollState) (h : s.op = 0#1) :
    s.endOfCheck p = { s with poll := p, verdict := verdictOf p, result := .ok, phase := .ready } := by
  simp [State.endOfCheck, h, State.finish]

theorem endOfCheck_idle {s : State} (h : s.op ≠ 0#1) :
    s.endOfCheck .idle = { s with poll := .idle, verdict := .idle, phase := .hdr } := by
  simp [State.endOfCheck, h, State.goto, verdictOf]

theorem endOfCheck_timedOut {s : State} (h : s.op ≠ 0#1) :
    s.endOfCheck .timedOut =
      { s with poll := .timedOut, verdict := .active, result := .engineTimeout, phase := .ready } := by
  simp [State.endOfCheck, h, State.raise, verdictOf, ErrorKind.result]

/-! ### What the branching operations do -/

theorem execValidate_cases {s t : State} (h : execValidate s = .next t) :
    ((s.chainId > 3#32 ∨ s.tableLen < ceil32 s.len) ∧ t = s.raise .invalidInput) ∨
      (¬s.chainId > 3#32 ∧ ¬s.tableLen < ceil32 s.len ∧ t = s.goto .select) := by
  unfold execValidate at h
  split at h
  · next hc => cases h; exact .inl ⟨.inl hc, rfl⟩
  · next hc =>
    split at h
    · next ht => cases h; exact .inl ⟨.inr ht, rfl⟩
    · next ht => cases h; exact .inr ⟨hc, ht, rfl⟩

theorem execChunk_cases {s t : State} (h : execChunk s = .next t) :
    (s.fullLeft > 0#32 ∧ t = { s with curL := 128#8, fullLeft := s.fullLeft - 1#32, phase := .monStart }) ∨
      (¬s.fullLeft > 0#32 ∧ s.res > 0#7 ∧
        t = { s with curL := s.res.setWidth 8, res := 0#7, phase := .monStart }) ∨
      (¬s.fullLeft > 0#32 ∧ ¬s.res > 0#7 ∧ t = s.finish) := by
  unfold execChunk at h
  split at h
  · next hf => cases h; exact .inl ⟨hf, rfl⟩
  · next hf =>
    split at h
    · next hr => cases h; exact .inr (.inl ⟨hf, hr, rfl⟩)
    · next hr => cases h; exact .inr (.inr ⟨hf, hr, rfl⟩)

theorem execCheck_cases {s t : State} (h : execCheck s = .next t) :
    (s.maxi = 0#32 ∧ t = s.endOfCheck .timedOut) ∨
      (s.maxi ≠ 0#32 ∧ t = { s with budget := s.maxi, poll := .polling, phase := .monRead }) := by
  unfold execCheck at h
  split at h
  · next hm => cases h; exact .inl ⟨hm, rfl⟩
  · next hm => cases h; exact .inr ⟨hm, rfl⟩

theorem execPoll_cases {s t : State} (h : execPoll s = .next t) :
    (busy s.statusAnswer = false ∧ t = s.readStat.endOfCheck .idle) ∨
      (busy s.statusAnswer = true ∧ decBudget s.budget = 0#32 ∧
        t = ({ s.readStat with budget := decBudget s.budget } : State).endOfCheck .timedOut) ∨
      (busy s.statusAnswer = true ∧ decBudget s.budget ≠ 0#32 ∧
        t = { s.readStat with budget := decBudget s.budget, phase := .monRead }) := by
  unfold execPoll at h
  split at h
  · next hb =>
    dsimp only at h
    split at h
    · next hz => cases h; exact .inr (.inl ⟨hb, hz, rfl⟩)
    · next hz => cases h; exact .inr (.inr ⟨hb, hz, rfl⟩)
  · next hb => cases h; exact .inl ⟨by simpa using hb, rfl⟩

theorem execDataw_cases {s t : State} (h : execDataw s = .next t) :
    ∃ w, tblRead s s.idx.toNat = .ok w ∧
      t = { s with
            trace := s.trace ++ [⟨.write, Reg.fifo4.offset, w⟩]
            idx := s.idx + 1#32
            wcnt := decWcnt s.wcnt
            phase := if decWcnt s.wcnt > 0#3 then .data else if s.rem > 0#5 then .remw else .nextChunk } := by
  unfold execDataw at h
  split at h
  · cases h
  · next w hw => cases h; exact ⟨w, hw, rfl⟩

theorem execRemw_cases {s t : State} (h : execRemw s = .next t) :
    ∃ w, tblRead s s.idx.toNat = .ok w ∧
      t = { s with
            trace := s.trace ++
              [⟨.write, (remainderPort s.rem).offset,
                remainderData s.params.padPolicy s.rem w (Config.padDraw s.draws)⟩]
            idx := s.idx + 1#32
            rem := 0#5
            draws := s.draws + 1
            phase := .nextChunk } := by
  unfold execRemw at h
  split at h
  · cases h
  · next w hw => cases h; exact ⟨w, hw, rfl⟩

/-! ### What the next step runs -/

theorem fetch_placed {s : State} {e : Encoded} (h : s.placed = some e) : s.fetch = some e := by
  simp [State.fetch, h]

theorem fetch_ready_none {s : State} (hp : s.placed = none) (hr : s.phase = .ready) (ho : s.offers = []) :
    s.fetch = none := by
  simp [State.fetch, hp, hr, ho]

theorem fetch_ready_offer {s : State} {r : CmdRecord} {rest : List CmdRecord} (hp : s.placed = none)
    (hr : s.phase = .ready) (ho : s.offers = r :: rest) : s.fetch = some (.cmd r) := by
  simp [State.fetch, hp, hr, ho]

theorem fetch_busy {s : State} (hp : s.placed = none) (hr : s.phase ≠ .ready) :
    s.fetch = some (.seq s.phase.code) := by
  simp [State.fetch, hp, hr]

theorem consume_placed {s : State} {e : Encoded} (h : s.placed = some e) :
    s.consume = { s with placed := none } := by
  simp [State.consume, h]

theorem consume_ready {s : State} (hp : s.placed = none) (hr : s.phase = .ready) :
    s.consume = { s with offers := s.offers.tail } := by
  simp [State.consume, hp, hr]

theorem consume_busy {s : State} (hp : s.placed = none) (hr : s.phase ≠ .ready) : s.consume = s := by
  simp [State.consume, hp, hr]

@[simp] theorem breaksOwnership_eq_true {s : State} :
    s.breaksOwnership = true ↔ (∃ e, s.placed = some e) ∧ s.phase ≠ .ready := by
  simp [State.breaksOwnership, Option.isSome_iff_exists]

theorem breaksOwnership_of_none {s : State} (h : s.placed = none) : s.breaksOwnership = false := by
  simp [State.breaksOwnership, h]

theorem breaksOwnership_of_ready {s : State} (h : s.phase = .ready) : s.breaksOwnership = false := by
  simp [State.breaksOwnership, h]

/-- Everything a step that goes on can be: a reset, waiting in `READY`, a bus access that does not complete, or the
fetched operation; neither of the last two is an operation placed from outside while a command runs (R54). -/
theorem step_cases {s t : State} (h : step s = .next t) :
    (s.resetRequest = true ∧ t = s.blockReset) ∨
      (s.resetRequest = false ∧ s.fetch = none ∧ t = s) ∨
      (s.resetRequest = false ∧ (s.placed = none ∨ s.phase = .ready) ∧ ∃ e i, s.fetch = some e ∧ decode e = .ok i ∧
        ((s.busHeld = true ∧ issuesBus i = true ∧ t = s) ∨
          ((s.busHeld = false ∨ issuesBus i = false) ∧ exec i s.consume = .next t))) := by
  unfold step at h
  split at h
  · next hr => cases h; exact .inl ⟨hr, rfl⟩
  · next hr =>
    have hr' : s.resetRequest = false := by simpa using hr
    split at h
    · next hf => cases h; exact .inr (.inl ⟨hr', hf, rfl⟩)
    · next e hf =>
      split at h
      · next i hd =>
        split at h
        · cases h
        · next ho =>
          have owned : s.placed = none ∨ s.phase = .ready := by
            simpa [State.breaksOwnership, Option.isSome_iff_ne_none, or_iff_not_imp_left] using ho
          split at h
          · next hs =>
            cases h
            have both : s.busHeld = true ∧ issuesBus i = true := by simpa [State.stuckAt] using hs
            exact .inr (.inr ⟨hr', owned, e, i, hf, hd, .inl ⟨both.1, both.2, rfl⟩⟩)
          · next hs =>
            have one : s.busHeld = false ∨ issuesBus i = false := by
              simp only [State.stuckAt, Bool.and_eq_true, not_and_or, Bool.not_eq_true] at hs
              exact hs
            exact .inr (.inr ⟨hr', owned, e, i, hf, hd, .inr ⟨one, h⟩⟩)
      · cases h

/-! ### The operation that `PHASE` selects in each busy phase (30_encoding.md R78) -/

@[simp] theorem decode_validate : decode (.seq Phase.validate.code) = .ok .validate := rfl
@[simp] theorem decode_select : decode (.seq Phase.select.code) = .ok .select := rfl
@[simp] theorem decode_plan : decode (.seq Phase.plan.code) = .ok .plan := rfl
@[simp] theorem decode_nextChunk : decode (.seq Phase.nextChunk.code) = .ok .chunk := rfl
@[simp] theorem decode_monStart : decode (.seq Phase.monStart.code) = .ok .check := rfl
@[simp] theorem decode_monRead : decode (.seq Phase.monRead.code) = .ok .poll := rfl
@[simp] theorem decode_hdr : decode (.seq Phase.hdr.code) = .ok .hdr := rfl
@[simp] theorem decode_data : decode (.seq Phase.data.code) = .ok .dataw := rfl
@[simp] theorem decode_remw : decode (.seq Phase.remw.code) = .ok .remw := rfl

end Sys2Proof.Machine
end

