-- ==== Sys2Proof/Laws/PerInstr.lean ====
section
/-! SUPPORT. Facts about every operation as syntax, one lemma per constructor. -/

namespace Sys2Proof.Laws.KeyMatchesTable

/-- The bits that select an operation in its format (30_encoding.md R78). -/
def keyBits : Encoded → Nat
  | .cmd r => r.op.toNat
  | .seq key => key.toNat
  | .bus key _ => key.toNat
  | .hdr16 v => v.toNat

/-- The mask and the match of an operation's row of the opcode table (R79). -/
def row : Instr → Nat × Nat
  | .isIdle _ => (0x1, 0x0)
  | .programChain _ _ _ _ => (0x1, 0x1)
  | .validate => (0xF, 0x1)
  | .select => (0xF, 0x2)
  | .plan => (0xF, 0x3)
  | .chunk => (0xF, 0x4)
  | .check => (0xF, 0x5)
  | .poll => (0xF, 0x6)
  | .hdr => (0xF, 0x7)
  | .dataw => (0xF, 0x8)
  | .remw => (0xF, 0x9)
  | .rdStat => (0x1FF, 0x000)
  | .wrEn _ => (0x1FF, 0x104)
  | .wrFifo1 _ => (0x1FF, 0x110)
  | .wrFifo2 _ => (0x1FF, 0x114)
  | .wrFifo4 _ => (0x1FF, 0x11C)
  | .tdiTdoHdr _ => (0x80FF, 0x0080)

/-- The encoder gives an operation a key that its row of the opcode table matches. -/
def Statement (i : Instr) : Prop := keyBits (encode i) &&& (row i).1 = (row i).2

theorem isIdle (m : Word) : Statement (.isIdle m) := by simp [Statement, keyBits, encode, row]
theorem programChain (c l n : Word) (t : List Word) : Statement (.programChain c l n t) := by simp [Statement, keyBits, encode, row]
theorem validate : Statement (.validate) := by simp [Statement, keyBits, encode, row]
theorem select : Statement (.select) := by simp [Statement, keyBits, encode, row]
theorem plan : Statement (.plan) := by simp [Statement, keyBits, encode, row]
theorem chunk : Statement (.chunk) := by simp [Statement, keyBits, encode, row]
theorem check : Statement (.check) := by simp [Statement, keyBits, encode, row]
theorem poll : Statement (.poll) := by simp [Statement, keyBits, encode, row]
theorem hdr : Statement (.hdr) := by simp [Statement, keyBits, encode, row]
theorem dataw : Statement (.dataw) := by simp [Statement, keyBits, encode, row]
theorem remw : Statement (.remw) := by simp [Statement, keyBits, encode, row]
theorem rdStat : Statement (.rdStat) := by simp [Statement, keyBits, encode, row]
theorem wrEn (v : Word) : Statement (.wrEn v) := by simp [Statement, keyBits, encode, row]
theorem wrFifo1 (v : Word) : Statement (.wrFifo1 v) := by simp [Statement, keyBits, encode, row]
theorem wrFifo2 (v : Word) : Statement (.wrFifo2 v) := by simp [Statement, keyBits, encode, row]
theorem wrFifo4 (v : Word) : Statement (.wrFifo4 v) := by simp [Statement, keyBits, encode, row]
theorem tdiTdoHdr (l : BitVec 7) : Statement (.tdiTdoHdr l) := by
  unfold Statement
  revert l
  decide

end Sys2Proof.Laws.KeyMatchesTable
end

