-- ==== Sys2Proof/Laws/Run.lean ====
section
/-! SUPPORT. Runs: `Leads` step by step, and how a run of one command is recognised. -/

namespace Sys2Proof.Safety

open Sys2Proof.Machine

@[simp] theorem leads_zero {s t : State} : Leads 0 s t ↔ s = t := by
  constructor
  · intro h
    cases h
    rfl
  · rintro rfl
    rfl

/-- A run of `k + 1` steps is one step and a run of `k`. -/
theorem leads_succ {k : Nat} {s t : State} : Leads (k + 1) s t ↔ ∃ u, step s = .next u ∧ Leads k u t := by
  have unfold_run : Host.Core.run core (k + 1) s =
      (match step s with
        | .next u => Host.Core.run core k u
        | .fault r => .fault r
        | .refused r => .refused r) := by
    cases h : step s <;> simp [Host.Core.run, core, h]
  unfold Leads
  rw [unfold_run]
  cases step s <;> simp

/-- A run is determined by its length. -/
theorem leads_unique {k : Nat} : ∀ {s t u : State}, Leads k s t → Leads k s u → t = u := by
  induction k with
  | zero =>
    intro s t u h g
    rw [leads_zero] at h g
    exact h.symm.trans g
  | succ k ih =>
    intro s t u h g
    obtain ⟨a, ha, h'⟩ := leads_succ.1 h
    obtain ⟨b, hb, g'⟩ := leads_succ.1 g
    rw [ha] at hb
    cases hb
    exact ih h' g'

/-- Runs join up. -/
theorem leads_add {k l : Nat} : ∀ {s t u : State}, Leads k s t → Leads l t u → Leads (k + l) s u := by
  induction k with
  | zero =>
    intro s t u h g
    rw [leads_zero] at h
    subst h
    simpa using g
  | succ k ih =>
    intro s t u h g
    obtain ⟨a, ha, h'⟩ := leads_succ.1 h
    rw [Nat.succ_add]
    exact leads_succ.2 ⟨a, ha, ih h' g⟩

/-- Where a run of `k` steps leads, if it does not stop. -/
def after (k : Nat) (s : State) : Option State :=
  match Host.Core.run core k s with
  | .next t => some t
  | .fault _ => none
  | .refused _ => none

theorem leads_iff_after {k : Nat} {s t : State} : Leads k s t ↔ after k s = some t := by
  unfold Leads after
  cases Host.Core.run core k s with
  | next u =>
    constructor
    · intro h
      cases h
      rfl
    · intro h
      cases h
      rfl
  | fault r => simp
  | refused r => simp

/-- The first `READY` state after an acceptance, recognised by computing the run. -/
theorem endsAfter_of_after {k : Nat} {s t : State} (hk : 1 ≤ k) (ht : after k s = some t) (hr : t.phase = .ready)
    (hb : ∀ j, j < k → 1 ≤ j → (after j s).map State.phase ≠ some .ready) : EndsAfter k s t := by
  refine ⟨hk, leads_iff_after.2 ht, hr, ?_⟩
  intro j u h1 h2 hj hu
  rw [leads_iff_after] at hj
  exact hb j h2 h1 (by simp [hj, hu])

end Sys2Proof.Safety
end

