-- ==== Sys2Proof/Tests/Slice0.lean ====
section
/-! SUPPORT. Small tests: ill-formed operations are refused, words written out from the spec's encodings decode, one
step of each operation against the spec's own examples (95_test_vectors.md), and for every statement that has hypotheses
a state that meets them. -/

namespace Sys2Proof.Tests

open Sys2Proof.Machine Sys2Proof.Safety

/-! ### Well-formedness -/

theorem test_wellFormed_refuses_short_table : Instr.wellFormed (.programChain 0 64 2 [7]) = false := by decide

theorem test_wellFormed_refuses_long_table : Instr.wellFormed (.programChain 0 32 1 [7, 8]) = false := by decide

theorem test_wellFormed_refuses_two_chains_enabled : Instr.wellFormed (.wrEn 0x00000003) = false := by decide

theorem test_wellFormed_refuses_no_chain_enabled : Instr.wellFormed (.wrEn 0x00000000) = false := by decide

theorem test_wellFormed_refuses_high_enable_bits : Instr.wellFormed (.wrEn 0x00000010) = false := by decide

theorem test_wellFormed_accepts_exact_table : Instr.wellFormed (.programChain 0 64 2 [7, 8]) = true := by decide

/-! ### Decoding of words written out from 30_encoding.md R78, R79 -/

theorem test_decode_isIdle : decodeTableWord 1 0b0 = some (.isIdle 0) := by decide

theorem test_decode_isIdle_record :
    decode (.cmd ⟨0b0, 100, 0, 0, 0, []⟩) = .ok (.isIdle 100) := by decide

theorem test_decode_programChain : decodeTableWord 1 0b1 = some (.programChain 0 0 0 []) := by decide

theorem test_decode_programChain_record :
    decode (.cmd ⟨0b1, 0, 2, 160, 5, [1, 2, 3, 4, 5]⟩) = .ok (.programChain 2 160 5 [1, 2, 3, 4, 5]) := by decide

theorem test_decode_validate : decodeTableWord 4 0b0001 = some .validate := by decide

theorem test_decode_select : decodeTableWord 8 0b0010 = some .select := by decide

theorem test_decode_plan : decodeTableWord 8 0b0011 = some .plan := by decide

theorem test_decode_chunk : decodeTableWord 8 0b0100 = some .chunk := by decide

theorem test_decode_check : decodeTableWord 8 0b0101 = some .check := by decide

theorem test_decode_poll : decodeTableWord 8 0b0110 = some .poll := by decide

theorem test_decode_hdr : decodeTableWord 8 0b0111 = some .hdr := by decide

theorem test_decode_dataw : decodeTableWord 8 0b1000 = some .dataw := by decide

theorem test_decode_remw : decodeTableWord 8 0b1001 = some .remw := by decide

theorem test_decode_rdStat : decodeTableWord 16 0b000000000 = some .rdStat := by decide

theorem test_decode_wrEn : decode (.bus 0b100000100 0x4) = .ok (.wrEn 0x4) := by decide

theorem test_decode_wrFifo1 : decode (.bus 0b100010000 0xAB) = .ok (.wrFifo1 0xAB) := by decide

theorem test_decode_wrFifo2 : decode (.bus 0b100010100 0x7F80) = .ok (.wrFifo2 0x7F80) := by decide

theorem test_decode_wrFifo4 : decode (.bus 0b100011100 0x03020100) = .ok (.wrFifo4 0x03020100) := by decide

theorem test_decode_tdiTdoHdr : decodeTableWord 16 0b0110001110000000 = some (.tdiTdoHdr 99) := by decide

theorem test_decode_refuses_ready : decode (.seq 0b0000) = .error .readyIsNoOperation := by decide

theorem test_decode_refuses_phase_ten : decode (.seq 0b1010) = .error (.unreachablePhase 0b1010) := by decide

theorem test_decode_refuses_offset_0x18 : decode (.bus 0b100011000 0) = .error (.undescribedAccess 0b100011000) := by
  decide

theorem test_decode_refuses_bad_marker : decode (.hdr16 0x0081) = .error (.notAHeader 0x0081) := by decide

theorem test_decode_refuses_bit_15 : decode (.hdr16 0x8080) = .error (.notAHeader 0x8080) := by decide

/-! ### States to start from, and what a step answers -/

/-- Parameters with `BASE = 0x40000000`, a budget and a pad policy. -/
def parms (maxIter : Word) (policy : PadPolicy) : Params := ⟨0x10000000, maxIter, 0, policy⟩

/-- A block in a phase, with `MAX_ITER = 2` and zero padding. -/
def inPhase (p : Phase) : State := { State.reset with phase := p, params := parms 2 .zero }

/-- The next state of an operation, if there is one. -/
def nextOf (i : Instr) (s : State) : Option State :=
  match exec i s with
  | .next t => some t
  | .fault _ => none
  | .refused _ => none

/-- The next state of a step, if there is one. -/
def stepOf (s : State) : Option State :=
  match step s with
  | .next t => some t
  | .fault _ => none
  | .refused _ => none

theorem nextOf_eq {i : Instr} {s t : State} (h : nextOf i s = some t) : exec i s = .next t := by
  unfold nextOf at h
  split at h <;> simp_all

theorem stepOf_eq {s t : State} (h : stepOf s = some t) : step s = .next t := by
  unfold stepOf at h
  split at h <;> simp_all

/-! ### One step of each operation, against the spec's examples -/

/-- R117. -/
theorem test_isIdle : (nextOf (.isIdle 100) (inPhase .ready)).map (fun t => (t.op, t.maxi, t.phase)) =
    some (0, 100, .monStart) := by decide

/-- R130: the block uses `MAX_ITER` as its budget. -/
theorem test_programChain :
    (nextOf (.programChain 2 64 2 [0x03020100, 0x07060504]) (inPhase .ready)).map
      (fun t => (t.op, t.maxi, t.phase, tableWord t.table 1)) = some (1, 2, .validate, some 0x07060504) := by decide

/-- 95_test_vectors.md, `VALIDATE`: 0xFFFFFFE1 bits need 0x08000000 words; a wrapping sum would need none. -/
theorem test_validate_long_table :
    (nextOf .validate { inPhase .validate with chainId := 1, len := 0xFFFFFFE1, tableLen := 0x07FFFFFF }).map
      State.result = some .invalidInput := by decide

/-- 95_test_vectors.md, `VALIDATE`: chain 3, 33 bits, 2 words. -/
theorem test_validate_valid :
    (nextOf .validate { inPhase .validate with chainId := 3, len := 33, tableLen := 2 }).map State.phase =
      some .select := by decide

/-- R132: chain 3 gives `WR EN, 0x00000008`. -/
theorem test_select : (nextOf .select { inPhase .select with chainId := 3 }).map (fun t => (t.trace, t.en)) =
    some ([⟨.write, 0x04, 0x00000008⟩], 8) := by decide

/-- R133: 160 bits are one full chunk and 32 bits. -/
theorem test_plan : (nextOf .plan { inPhase .plan with len := 160 }).map (fun t => (t.fullLeft, t.res)) =
    some (1, 32) := by decide

/-- R135: 100 bits are left. -/
theorem test_chunk : (nextOf .chunk { inPhase .nextChunk with res := 100 }).map (fun t => (t.curL, t.res, t.phase)) =
    some (100, 0, .monStart) := by decide

/-- R112: budget 100. -/
theorem test_check : (nextOf .check { inPhase .monStart with maxi := 100 }).map (fun t => (t.budget, t.poll)) =
    some (100, .polling) := by decide

/-- R115: budget 0 makes no read. -/
theorem test_check_zero_budget : (nextOf .check { inPhase .monStart with maxi := 0 }).map
    (fun t => (t.trace, t.verdict, t.result)) = some ([], .active, .ok) := by decide

/-- R113: budget 2 and a count of 1. -/
theorem test_poll_busy : (nextOf .poll { inPhase .monRead with budget := 2, answers := [0x10000000] }).map
    (fun t => (t.budget, t.poll, t.phase)) = some (1, .polling, .monRead) := by decide

/-- R113: an idle word ends the check on the last unit too. -/
theorem test_poll_idle : (nextOf .poll { inPhase .monRead with op := 1, budget := 1, answers := [0x0FFFFFFF] }).map
    (fun t => (t.budget, t.verdict, t.phase)) = some (1, .idle, .hdr) := by decide

/-- R138: 100 bits give `WR FIFO2, 0x00006380`, three words and 4 bits. -/
theorem test_hdr : (nextOf .hdr { inPhase .hdr with curL := 100 }).map (fun t => (t.trace, t.wcnt, t.rem, t.phase)) =
    some ([⟨.write, 0x14, 0x00006380⟩], 3, 4, .data) := by decide

/-- A block that has word `w` at the index it reads next, the fifth of five. -/
def atWordFour (p : Phase) (w : Word) : State :=
  { inPhase p with tableLen := 5, table := Memory.ofWords [0, 0, 0, 0, w], idx := 4 }

/-- R139: `IDX = 4`, `T[4] = 0x13121110`. -/
theorem test_dataw : (nextOf .dataw { atWordFour .data 0x13121110 with wcnt := 1 }).map
    (fun t => (t.trace, t.idx, t.phase)) = some ([⟨.write, 0x1C, 0x13121110⟩], 5, .nextChunk) := by decide

/-- 95_test_vectors.md, `REMW` data: 17 bits of 0xDEADBEEF under `zero`. -/
theorem test_remw_zero : (nextOf .remw { atWordFour .remw 0xDEADBEEF with rem := 17 }).map State.trace =
    some [⟨.write, 0x1C, 0x0001BEEF⟩] := by decide

/-- 95_test_vectors.md, `REMW` data: 9 bits of 0xDEADBEEF under `passthrough`. -/
theorem test_remw_passthrough :
    (nextOf .remw { atWordFour .remw 0xDEADBEEF with rem := 9, params := parms 2 .passthrough }).map State.trace =
      some [⟨.write, 0x14, 0xDEADBEEF⟩] := by decide

theorem test_rdStat : (nextOf .rdStat { inPhase .ready with answers := [0x80000000, 7] }).map
    (fun t => (t.trace, t.answers)) = some ([⟨.read, 0x00, 0x80000000⟩], [7]) := by decide

/-- R102: 0x00000004 selects chain 2. -/
theorem test_wrEn : (nextOf (.wrEn 4) (inPhase .ready)).map (fun t => (t.trace, t.en)) =
    some ([⟨.write, 0x04, 0x00000004⟩], 4) := by decide

/-- 95_test_vectors.md, bus operations: the bytes of 0xAABBCCDD. -/
theorem test_wrFifo1 : (nextOf (.wrFifo1 0xAABBCCDD) (inPhase .ready)).map (fun t => fifoBytes t.trace) =
    some [0xDD] := by decide

theorem test_wrFifo2 : (nextOf (.wrFifo2 0xAABBCCDD) (inPhase .ready)).map (fun t => fifoBytes t.trace) =
    some [0xDD, 0xCC] := by decide

theorem test_wrFifo4 : (nextOf (.wrFifo4 0xAABBCCDD) (inPhase .ready)).map (fun t => fifoBytes t.trace) =
    some [0xDD, 0xCC, 0xBB, 0xAA] := by decide

/-- R75: `hdr(128) = 0x7F80`. -/
theorem test_tdiTdoHdr : (nextOf (.tdiTdoHdr 127) (inPhase .ready)).map State.trace =
    some [⟨.write, 0x14, 0x00007F80⟩] := by decide

/-- 95_test_vectors.md, `DECODE`. -/
theorem test_busy : [0x00000000, 0x0FFFFFFF, 0x10000000, 0x70000000, 0x80000000, 0x08000000].map busy =
    [false, false, true, true, true, false] := by decide

/-- 95_test_vectors.md, bus operations: the address of `FIFO4` with `BASE = 0x40000000`. -/
theorem test_address : busAddress (parms 2 .zero) Reg.fifo4.offset = 0x4000001C := by decide

/-- 10_state.md R25 and 30_encoding.md R77: names and codes. -/
theorem test_names_and_codes :
    chainName 2 = some "IO_SCAN_CHAIN_2" ∧ chainName 4 = none ∧ State.reset.responseCodes = (3, 0) := by
  decide +kernel

/-- 42_chain_programmer.md R151: header, whole words and remainder of a residual chunk of 9, 33, 100 and 127 bits. -/
theorem test_worked_plans :
    [(9 : BitVec 8), 33, 100, 127].map (fun n => (header n, wordsOf n, remainderOf n, remainderPort (remainderOf n))) =
      [(0x0880, 0, 9, .fifo2), (0x2080, 1, 1, .fifo1), (0x6380, 3, 4, .fifo1), (0x7E80, 3, 31, .fifo4)] := by decide

/-- R82: a line of a trace. -/
theorem test_render : (⟨.write, 0x14, 0x00007F80⟩ : BusEvent).render = "WR FIFO2, 0x00007F80" := by decide +kernel

/-- A placed word is what the next step runs, for a key of each format. -/
theorem test_withFetchWord :
    (stepOf (State.reset.withFetchWord 8 0b0)).map State.phase = some .monStart ∧
      (stepOf (State.reset.withFetchWord 8 0b0011)).map State.phase = some .nextChunk ∧
      (stepOf (State.reset.withFetchWord 16 0b100010000)).map State.trace = some [⟨.write, 0x10, 0⟩] ∧
      (stepOf (State.reset.withFetchWord 16 0x7F80)).map State.trace = some [⟨.write, 0x14, 0x7F80⟩] ∧
      (stepOf ((inPhase .data).withFetchWord 16 0b100010000)).map State.trace = some [⟨.write, 0x10, 0⟩] := by decide

/-- 20_memory.md R54: another master's write of `EN` in the middle of a command is refused. -/
theorem test_outside_write_during_command :
    step { inPhase .data with placed := some (.bus 0b100000100 8) } = .refused (.ownershipBroken (.wrEn 8)) := rfl

/-! ### Hypotheses that can be met: operations -/

theorem witness_IsIdleAcceptedWhenReady : State.reset.phase = .ready := rfl

theorem witness_ProgramChainAcceptedWhenReady : (inPhase .ready).phase = .ready := rfl

theorem witness_BusyBlockHoldsCommandsOff :
    ∃ s t, s.phase ≠ .ready ∧ Undisturbed s ∧ s.offers ≠ [] ∧ step s = .next t :=
  ⟨{ inPhase .plan with offers := [⟨0, 1, 0, 0, 0, []⟩] }, _, by decide, ⟨rfl, rfl, rfl⟩, by decide, rfl⟩

theorem witness_SelectEnablesOneChain : ∃ s : State, s.chainId.toNat ≤ 3 ∧ s.chainId.toNat = 3 :=
  ⟨{ inPhase .select with chainId := 3 }, by decide, by decide⟩

theorem witness_ChunkStartsNextOrEnds :
    (∃ s : State, 0 < s.fullLeft.toNat) ∧ (∃ s : State, s.fullLeft.toNat = 0 ∧ 0 < s.res.toNat) ∧
      ∃ s : State, s.fullLeft.toNat = 0 ∧ s.res.toNat = 0 :=
  ⟨⟨{ inPhase .nextChunk with fullLeft := 1 }, by decide⟩, ⟨{ inPhase .nextChunk with res := 127 }, by decide⟩,
    ⟨inPhase .nextChunk, by decide⟩⟩

theorem witness_HdrWritesPacketHeader :
    (∃ s : State, s.curL.toNat = 1 ∧ 1 ≤ s.curL.toNat ∧ s.curL.toNat ≤ 128) ∧
      ∃ s : State, s.curL.toNat = 128 ∧ 1 ≤ s.curL.toNat ∧ s.curL.toNat ≤ 128 :=
  ⟨⟨{ inPhase .hdr with curL := 1 }, by decide⟩, ⟨{ inPhase .hdr with curL := 128 }, by decide⟩⟩

theorem witness_DatawSendsOneTableWord :
    ∀ n ∈ [(1 : BitVec 3), 4], ∃ s : State, s.wcnt = n ∧ s.idx.toNat < s.tableLen.toNat ∧
      tableWord s.table s.idx.toNat = some 0x13121110 ∧ 1 ≤ s.wcnt.toNat := by
  intro n hn
  have positive : 1 ≤ n.toNat := by
    revert n
    decide
  exact ⟨{ atWordFour .data 0x13121110 with wcnt := n }, rfl, Nat.lt_succ_self 4, rfl, positive⟩

theorem witness_RemwSendsRemainder :
    ∀ r ∈ [(1 : BitVec 5), 8, 9, 16, 17, 31], ∀ policy ∈ [PadPolicy.draw, .zero, .passthrough], ∃ s : State,
      s.rem = r ∧ s.params.padPolicy = policy ∧ s.idx.toNat < s.tableLen.toNat ∧
      tableWord s.table s.idx.toNat = some 0xDEADBEEF ∧ 1 ≤ s.rem.toNat := by
  intro r hr policy _
  have positive : 1 ≤ r.toNat := by
    revert r
    decide
  exact ⟨{ atWordFour .remw 0xDEADBEEF with rem := r, params := parms 2 policy }, rfl, rfl, Nat.lt_succ_self 4, rfl,
    positive⟩

theorem witness_TableReadOutsideStops :
    (∃ s : State, s.tableLen.toNat ≤ s.idx.toNat) ∧
      ∃ s : State, s.idx.toNat < s.tableLen.toNat ∧ tableWord s.table s.idx.toNat = none :=
  ⟨⟨{ inPhase .data with tableLen := 1, idx := 1 }, by decide⟩, ⟨{ inPhase .data with tableLen := 1 }, by decide⟩⟩

theorem witness_UnstatedValuesStayOpen :
    (∃ s : State, 3 < s.chainId.toNat ∧ s.chainId.toNat = 4) ∧
      (∃ s : State, s.curL.toNat = 0 ∨ 128 < s.curL.toNat) ∧
      (∃ s : State, s.curL.toNat = 129 ∧ (s.curL.toNat = 0 ∨ 128 < s.curL.toNat)) ∧
      (∃ s : State, s.idx.toNat < s.tableLen.toNat ∧ tableWord s.table s.idx.toNat = some 7 ∧ s.wcnt = 0#3 ∧
        s.rem = 0#5) ∧
      ∃ s : State, 2 ^ 28 ≤ s.statusAnswer.toNat ∧ s.budget = 0#32 :=
  ⟨⟨{ inPhase .select with chainId := 4 }, by decide⟩, ⟨inPhase .hdr, by decide⟩,
    ⟨{ inPhase .hdr with curL := 129 }, by decide⟩, ⟨atWordFour .data 7, by decide⟩,
    ⟨{ inPhase .monRead with answers := [0x10000000] }, by decide⟩⟩

theorem witness_CheckStartsPollingOrTimesOut :
    (∃ s : State, s.maxi ≠ 0#32) ∧ ∃ s : State, s.maxi = 0#32 :=
  ⟨⟨{ inPhase .monStart with maxi := 1 }, by decide⟩, ⟨inPhase .monStart, rfl⟩⟩

theorem witness_PollReadsDecodesDecides :
    (∃ s : State, s.statusAnswer.toNat < 2 ^ 28 ∧ s.statusAnswer = 0x0FFFFFFF) ∧
      (∃ s : State, 2 ^ 28 ≤ s.statusAnswer.toNat ∧ 2 ≤ s.budget.toNat ∧ s.statusAnswer = 0x10000000) ∧
      ∃ s : State, 2 ^ 28 ≤ s.statusAnswer.toNat ∧ s.budget.toNat = 1 ∧ s.statusAnswer = 0xFFFFFFFF :=
  ⟨⟨{ inPhase .monRead with answers := [0x0FFFFFFF] }, by decide⟩,
    ⟨{ inPhase .monRead with answers := [0x10000000], budget := 2 }, by decide⟩,
    ⟨{ inPhase .monRead with answers := [0xFFFFFFFF], budget := 1 }, by decide⟩⟩

theorem witness_StatusReadTakesTheNextAnswer :
    ∃ (s : State) (v : Word) (rest : List Word), s.answers = v :: rest :=
  ⟨{ inPhase .monRead with answers := [0x80000000, 0] }, 0x80000000, [0], rfl⟩

theorem witness_HeaderEncodesLengthMinusOne : ∀ n ∈ [(1 : BitVec 8), 128], 1 ≤ n.toNat ∧ n.toNat ≤ 128 := by decide

theorem witness_RemainderPortIsTheNarrowest : ∀ r ∈ [(1 : BitVec 5), 8, 9, 16, 17, 31], 1 ≤ r.toNat := by decide

theorem witness_UndefinedChainIsInvalidInput :
    ∃ s : State, s.chainId = Params.chainUndefined s.params ∧ s.chainId = 4 :=
  ⟨{ inPhase .validate with chainId := 4 }, by decide, rfl⟩

theorem witness_PortsEnqueueLowByteFirst :
    ∃ e : BusEvent, (e.dir = .read ∨ (e.offset ≠ 0x10#8 ∧ e.offset ≠ 0x14#8 ∧ e.offset ≠ 0x1C#8)) ∧ e.dir = .write :=
  ⟨⟨.write, 0x04, 1⟩, by decide⟩

theorem witness_DecodeAndEncodeAgree :
    decode (.seq 9) = .ok .remw ∧ decode (.bus 0x11C 5) = .ok (.wrFifo4 5) ∧ decode (.bus 0 5) = .ok .rdStat ∧
      decode (.hdr16 0x7F80) = .ok (.tdiTdoHdr 127) := by decide

/-! ### Hypotheses that can be met: steps -/

theorem witness_StepRunsTheFetchedOperation :
    (∃ (s : State) (e : Encoded), s.resetRequest = false ∧ s.busHeld = false ∧ s.phase = .ready ∧ s.placed = some e ∧
        s.fetch = some e ∧ decode e = .ok (.wrFifo1 5)) ∧
      (∃ (s : State) (r : CmdRecord) (rest : List CmdRecord), s.resetRequest = false ∧ s.placed = none ∧
        s.phase = .ready ∧ s.offers = r :: rest ∧ s.fetch = some (.cmd r) ∧ decode (.cmd r) = .ok (.isIdle 3)) ∧
      ∃ s : State, s.resetRequest = false ∧ s.placed = none ∧ s.phase ≠ .ready ∧ s.fetch = some (.seq 3) ∧
        decode (.seq 3) = .ok .plan :=
  ⟨⟨{ inPhase .ready with placed := some (.bus 0x110 5) }, .bus 0x110 5, rfl, rfl, rfl, rfl, rfl, by decide⟩,
    ⟨{ inPhase .ready with offers := [⟨0, 3, 0, 0, 0, []⟩] }, ⟨0, 3, 0, 0, 0, []⟩, [], rfl, rfl, rfl, rfl, rfl,
      by decide⟩,
    ⟨inPhase .plan, rfl, rfl, by decide, rfl, by decide⟩⟩

theorem witness_ReadyBlockWaitsForACommand :
    Undisturbed State.reset ∧ State.reset.phase = .ready ∧ State.reset.offers = [] := ⟨⟨rfl, rfl, rfl⟩, rfl, rfl⟩

theorem witness_HeldBusLeavesTheBlockStuck :
    (∀ p ∈ [Phase.select, .monRead, .hdr, .data, .remw],
        ∃ s : State, s.resetRequest = false ∧ s.placed = none ∧ s.busHeld = true ∧ s.phase = p) ∧
      ∀ p ∈ [Phase.validate, .plan, .nextChunk, .monStart],
        ∃ s : State, s.resetRequest = false ∧ s.placed = none ∧ s.busHeld = true ∧ s.phase = p ∧
          (stepOf { s with busHeld := false }).isSome = true := by
  refine ⟨fun p _ => ⟨{ inPhase p with busHeld := true }, rfl, rfl, rfl, rfl⟩, fun p hp => ?_⟩
  refine ⟨{ inPhase p with busHeld := true }, rfl, rfl, rfl, rfl, ?_⟩
  revert p
  decide

theorem witness_UndescribedKeyIsRefused :
    ∃ (s : State) (e : Encoded) (r : DecodeError), s.resetRequest = false ∧ s.placed = some e ∧ decode e = .error r :=
  ⟨{ inPhase .ready with placed := some (.bus 0x118 0) }, .bus 0x118 0, .undescribedAccess 0x118, rfl, rfl, by decide⟩

theorem witness_OutsideAccessDuringACommandIsRefused :
    ∃ (s : State) (e : Encoded) (i : Instr), s.resetRequest = false ∧ s.placed = some e ∧ s.phase ≠ .ready ∧
      decode e = .ok i ∧ i = .wrEn 8 :=
  ⟨{ inPhase .data with placed := some (.bus 0x104 8) }, .bus 0x104 8, .wrEn 8, rfl, rfl, by decide, by decide, rfl⟩

/-- A state that the block can step from, in each phase. -/
def canStep (p : Phase) : State :=
  { atWordFour p 7 with answers := [0x80000000], budget := 2, curL := 1, wcnt := 1, rem := 1 }

/-- For the statements about a step of an undisturbed block (the transition table, the bus operations, `EN`). -/
theorem witness_undisturbed_steps :
    ∀ p ∈ [Phase.ready, .validate, .select, .plan, .nextChunk, .monStart, .monRead, .hdr, .data, .remw],
      Undisturbed (canStep p) ∧ (stepOf (canStep p)).isSome = true := by
  intro p hp
  refine ⟨⟨rfl, rfl, rfl⟩, ?_⟩
  revert p
  decide

theorem witness_OnlySelectChangesTheEnable :
    (∃ s : State, s.placed = none ∧ s.phase = .ready ∧ (stepOf s).isSome = true) ∧
      (∃ s : State, s.placed = none ∧ s.phase = .select ∧ s.resetRequest = true ∧ (stepOf s).isSome = true) ∧
      ∃ s : State, s.placed ≠ none ∧ s.phase = .data ∧ (stepOf s).isSome = true :=
  ⟨⟨inPhase .ready, by decide⟩, ⟨{ inPhase .select with resetRequest := true }, by decide⟩,
    ⟨{ inPhase .data with placed := some (.bus 0x104 8), resetRequest := true }, by decide⟩⟩

/-- For the statements about `exec i s = .next t` (what the operations leave alone): every operation has one. -/
theorem witness_operations_complete :
    ∀ i ∈ [Instr.isIdle 1, .programChain 0 0 0 [], .validate, .select, .plan, .chunk, .check, .poll, .hdr, .dataw,
      .remw, .rdStat, .wrEn 1, .wrFifo1 1, .wrFifo2 1, .wrFifo4 1, .tdiTdoHdr 1],
      (nextOf i (canStep .ready)).isSome = true := by decide

theorem witness_OperationsLeaveParametersAndTable :
    ∃ (i : Instr) (s : State), i = .programChain 0 0 0 [] ∧ s.phase ≠ .ready ∧ (nextOf i s).isSome = true :=
  ⟨_, inPhase .plan, rfl, by decide, by decide⟩

theorem witness_ErrorsAreRaisedOnlyWhereNamed :
    (∃ s : State, s.result ≠ .engineTimeout ∧ (nextOf .check s).map State.result = some .engineTimeout) ∧
      (∃ s : State, s.result ≠ .engineTimeout ∧ (nextOf .poll s).map State.result = some .engineTimeout) ∧
      ∃ s : State, s.result ≠ .invalidInput ∧ (nextOf .validate s).map State.result = some .invalidInput :=
  ⟨⟨{ inPhase .monStart with op := 1 }, by decide⟩,
    ⟨{ inPhase .monRead with op := 1, budget := 1, answers := [0x80000000] }, by decide⟩,
    ⟨{ inPhase .validate with chainId := 4 }, by decide⟩⟩

theorem witness_ResetRequestAbandonsTheCommand :
    ∃ s : State, s.resetRequest = true ∧ s.phase = .data ∧ s.en = 8 :=
  ⟨{ inPhase .data with resetRequest := true, en := 8 }, rfl, rfl, rfl⟩

theorem witness_UnspecifiedLatchesAreNeverObserved :
    ∃ s t s' : State, Undisturbed s ∧ s.phase = .ready ∧ SameButUnspecified s t ∧ s ≠ t ∧ Leads 2 s s' ∧
      s'.offers ≠ s.offers ∧ s'.phase = .ready ∧ s'.op = 0#1 := by
  let s : State := { inPhase .ready with offers := [⟨0, 0, 0, 0, 0, []⟩] }
  let s' := (after 2 s).getD s
  refine ⟨s, { s with len := 5, op := 1, verdict := .active }, s', ⟨rfl, rfl, rfl⟩, rfl, ?_, by decide, ?_, by decide,
    by decide, by decide⟩
  · exact ⟨rfl, rfl, rfl, rfl, rfl, rfl, rfl, rfl, rfl, rfl, rfl, rfl, rfl⟩
  · exact leads_iff_after.2 (by decide)

/-! ### Hypotheses that can be met: the invariant -/

/-- A block that is sending the last word of a 160-bit chain. -/
def sendingLastWord : State :=
  { atWordFour .data 7 with op := 1, len := 160, maxi := 2, wcnt := 1 }

/-- A block that has a remainder of 31 bits left of 159. -/
def remainderLast : State :=
  { atWordFour .remw 7 with op := 1, len := 159, maxi := 2, rem := 31 }

theorem tableSupplied_atWordFour (p : Phase) (w : Word) : TableSupplied (atWordFour p w) := by
  intro i hi
  have h5 : i < 5 := hi
  have cases_i : i = 0 ∨ i = 1 ∨ i = 2 ∨ i = 3 ∨ i = 4 := by omega
  rcases cases_i with rfl | rfl | rfl | rfl | rfl <;> rfl

theorem sendingLastWord_inv : Inv sendingLastWord where
  nothingPlaced := rfl
  tableCanonical := Memory.ofWords_wf _
  offersWellFormed := by intro r hr; cases hr
  noResultWhileBusy := fun _ => rfl
  latches := by
    refine ⟨⟨rfl, tableSupplied_atWordFour .data 7, by decide, by decide, rfl⟩, by decide, by decide, by decide, ?_⟩
    exact Or.inl (by decide)

theorem remainderLast_inv : Inv remainderLast where
  nothingPlaced := rfl
  tableCanonical := Memory.ofWords_wf _
  offersWellFormed := by intro r hr; cases hr
  noResultWhileBusy := fun _ => rfl
  latches := ⟨⟨rfl, tableSupplied_atWordFour .remw 7, by decide, by decide, rfl⟩, rfl, by decide, by decide, by decide⟩

theorem witness_StepKeepsTheInvariant : ∃ s t, Inv s ∧ step s = .next t ∧ s.phase = .data ∧ t.phase = .nextChunk :=
  ⟨sendingLastWord, (stepOf sendingLastWord).getD sendingLastWord, sendingLastWord_inv, stepOf_eq (by decide), rfl,
    by decide⟩

theorem witness_InvariantStateHasANextStep : Inv remainderLast := remainderLast_inv

theorem witness_TableReadsStayInBounds :
    (∃ s, Inv s ∧ s.phase = .data) ∧ ∃ s, Inv s ∧ s.phase = .remw :=
  ⟨⟨sendingLastWord, sendingLastWord_inv, rfl⟩, ⟨remainderLast, remainderLast_inv, rfl⟩⟩

theorem witness_TableSpaceStaysCanonical :
    ∃ (i : Instr) (s : State), Memory.wf s.table ∧ s.table ≠ [] ∧ (nextOf i s).isSome = true :=
  ⟨.dataw, { atWordFour .data 7 with wcnt := 1 }, Memory.ofWords_wf _, by decide, by decide⟩

/-! ### Hypotheses that can be met: whole checks and commands -/

theorem witness_IdleCheckCountsItsReads :
    (∃ (m j : Nat) (f : Flow), 1 ≤ j ∧ j ≤ m ∧ j = 2 ∧
        busy (nextAnswer (f.answers.drop (j - 1)) (f.reads + (j - 1))) = false ∧
        ∀ n, n < j - 1 → busy (nextAnswer (f.answers.drop n) (f.reads + n)) = true) ∧
      ∃ (m : Nat) (f : Flow), m = 2 ∧ ∀ n, n < m → busy (nextAnswer (f.answers.drop n) (f.reads + n)) = true :=
  ⟨⟨2, 2, ⟨[], [0x10000000, 0x0FFFFFFF], 0, 0⟩, by decide, by decide, rfl, by decide, by decide⟩,
    ⟨2, ⟨[], [0x10000000, 0x80000000], 0, 0⟩, rfl, by decide⟩⟩

theorem witness_MonitorAgreesWithIdleCheck :
    ∃ s : State, Undisturbed s ∧ s.phase = .monStart ∧ s.maxi = 3 ∧ s.op = 1#1 :=
  ⟨{ inPhase .monStart with maxi := 3, op := 1 }, ⟨rfl, rfl, rfl⟩, rfl, rfl, rfl⟩

/-- A `READY` block to which one command is offered. -/
def offering (r : CmdRecord) (maxIter : Word) : State :=
  { inPhase .ready with offers := [r], params := parms maxIter .zero, answers := [0x0FFFFFFF] }

theorem offered_offering (r : CmdRecord) (m : Word) : Offered r (offering r m) := ⟨⟨rfl, rfl, rfl⟩, rfl, [], rfl⟩

/-- `is_idle(1)`. -/
def askIdle : CmdRecord := ⟨0, 1, 0, 0, 0, []⟩

/-- Chain 2, no bits (95_test_vectors.md P4). -/
def noBits : CmdRecord := ⟨1, 0, 2, 0, 0, []⟩

/-- Chain 0, 8 bits (95_test_vectors.md P6). -/
def eightBits : CmdRecord := ⟨1, 0, 0, 8, 1, [0x000000AB]⟩

/-- Chain 4 (95_test_vectors.md P5). -/
def noSuchChain : CmdRecord := ⟨1, 0, 4, 32, 1, [0]⟩

/-- 64 bits with one word (95_test_vectors.md P5). -/
def shortTable : CmdRecord := ⟨1, 0, 1, 64, 1, [0]⟩

theorem witness_IsIdleCommandRunsOneCheck : Offered askIdle (offering askIdle 1) ∧ askIdle.op = 0#1 :=
  ⟨offered_offering _ _, rfl⟩

/-- For the statements about a whole `PROGRAM_CHAIN` (agreement with the algorithm, the bound on its steps). -/
theorem witness_programChain_offered :
    ∃ tbl : Nat → Word, Offered eightBits (offering eightBits 1) ∧ eightBits.op = 1#1 ∧
      (decodeCmd eightBits).wellFormed = true ∧ ∀ i w, eightBits.table[i]? = some w → tbl i = w := by
  refine ⟨fun _ => 0x000000AB, offered_offering _ _, rfl, by decide, ?_⟩
  intro i w h
  cases i with
  | zero => simpa [eightBits] using h
  | succ i => simp [eightBits] at h

/-- For the statements about a command that ends `OK`: eight bits, in ten steps. -/
theorem witness_command_ends_ok :
    ∃ t, CommandEnds (offering eightBits 1) t ∧ t.result = .ok ∧ fifoBytes t.trace = [0x80, 0x07, 0xAB] :=
  ⟨(after 10 (offering eightBits 1)).getD State.reset,
    ⟨10, endsAfter_of_after (by decide) (by decide +kernel) (by decide +kernel) (by decide +kernel)⟩,
    by decide +kernel, by decide +kernel⟩

theorem witness_TimeoutIsPreciseAtAChunkBoundary :
    ∃ t, CommandEnds (offering eightBits 0) t ∧ t.result = .engineTimeout :=
  ⟨(after 6 (offering eightBits 0)).getD State.reset,
    ⟨6, endsAfter_of_after (by decide) (by decide +kernel) (by decide +kernel) (by decide +kernel)⟩,
    by decide +kernel⟩

theorem witness_InvalidCommandTouchesNothing :
    (Offered noSuchChain (offering noSuchChain 1) ∧ noSuchChain.op = 1#1 ∧ 3 < noSuchChain.chainId.toNat) ∧
      Offered shortTable (offering shortTable 1) ∧ shortTable.op = 1#1 ∧
        shortTable.tableLen.toNat < (shortTable.lengthInBits.toNat + 31) / 32 :=
  ⟨⟨offered_offering _ _, rfl, by decide⟩, offered_offering _ _, rfl, by decide⟩

theorem witness_ZeroLengthOnlySelectsTheChain :
    Offered noBits (offering noBits 1) ∧ noBits.op = 1#1 ∧ noBits.lengthInBits = 0#32 ∧ noBits.chainId.toNat ≤ 3 :=
  ⟨offered_offering _ _, rfl, rfl, by decide⟩

theorem witness_ZeroBudgetTimesOutAfterSelect :
    Offered eightBits (offering eightBits 0) ∧ eightBits.op = 1#1 ∧ (offering eightBits 0).params.maxIter = 0#32 ∧
      eightBits.chainId.toNat ≤ 3 ∧ (eightBits.lengthInBits.toNat + 31) / 32 ≤ eightBits.tableLen.toNat ∧
      0 < eightBits.lengthInBits.toNat :=
  ⟨offered_offering _ _, rfl, rfl, by decide, by decide, by decide⟩

end Sys2Proof.Tests
end

section
/-! Proofs about the scope of the block's inputs (00_scope.md R6, R7): chain identifiers outside 0 to 3, the "undefined"
sentinel among them, and table reads outside what the host supplied. -/

namespace Sys2Proof.Machine

/-! ### Chain identifiers outside 0 to 3 -/

/-- The sum `4 + undefinedOver` does not wrap, by the type of the parameter. -/
@[simp] theorem Params.chainUndefined_toNat (p : Params) :
    (Params.chainUndefined p).toNat = 4 + p.undefinedOver.val := by
  have noWrap : 4 + p.undefinedOver.val < 2 ^ 32 := by omega
  simpa [Params.chainUndefined] using noWrap

/-- No parameters make the sentinel one of the four chain identifiers. -/
theorem Params.four_le_chainUndefined (p : Params) : 4 ≤ (Params.chainUndefined p).toNat := by
  rw [chainUndefined_toNat]
  exact Nat.le_add_right _ _

theorem exec_validate (s : State) : exec .validate s = execValidate s := rfl

/-- R131's first test: an identifier above 3 is refused, whatever the lengths are. -/
theorem exec_validate_of_chain_above {s : State} (h : 3 < s.chainId.toNat) :
    exec .validate s = .next (s.raise .invalidInput) := by
  have above : s.chainId > 3#32 := BitVec.lt_def.2 h
  rw [exec_validate, execValidate, if_pos above]

/-! ### Table reads that stop -/

theorem exec_dataw (s : State) : exec .dataw s = execDataw s := rfl

theorem exec_remw (s : State) : exec .remw s = execRemw s := rfl

/-- `DATAW` stops with the fault of its table read. -/
theorem exec_dataw_of_tblRead_error {s : State} {f : Fault} (h : tblRead s s.idx.toNat = .error f) :
    exec .dataw s = .fault f := by
  rw [exec_dataw, execDataw, h]

/-- `REMW` stops with the fault of its table read. -/
theorem exec_remw_of_tblRead_error {s : State} {f : Fault} (h : tblRead s s.idx.toNat = .error f) :
    exec .remw s = .fault f := by
  rw [exec_remw, execRemw, h]

/-- Settles O26: the sentinel is above 3, so `VALIDATE` refuses it as it does any such identifier. -/
theorem undefinedChainIsInvalidInput : Obligations.UndefinedChainIsInvalidInput := by
  intro s
  have sentinel := Params.four_le_chainUndefined s.params
  refine ⟨sentinel, fun chain => ?_⟩
  have above : 3 < s.chainId.toNat := by
    rw [chain]
    exact sentinel
  exact exec_validate_of_chain_above above

/-- Settles O11: both operations stop as their table read does, and the read names which of the two cases it is. -/
theorem tableReadOutsideStops : Obligations.TableReadOutsideStops := by
  intro s
  refine ⟨fun outside => ?_, fun inside missing => ?_⟩
  · have stops := tblRead_outside outside
    exact ⟨exec_dataw_of_tblRead_error stops, exec_remw_of_tblRead_error stops⟩
  · have stops := tblRead_missing inside missing
    exact ⟨exec_dataw_of_tblRead_error stops, exec_remw_of_tblRead_error stops⟩

end Sys2Proof.Machine
end

section
/-! Facts about the operands and the table space that the claims about the state rest on (43_arithmetic_and_sequencing.md
R171, R174, R175; 10_state.md R24). -/

namespace Sys2Proof.Machine

/-! ### The operand forms, as numbers -/

@[simp] theorem fullChunksOf_toNat (n : Word) : (fullChunksOf n).toNat = n.toNat / 128 := by
  simp [fullChunksOf, Nat.shiftRight_eq_div_pow]

@[simp] theorem residualOf_toNat (n : Word) : (residualOf n).toNat = n.toNat % 128 := by
  simp [residualOf]

@[simp] theorem wordsOf_toNat (n : BitVec 8) : (wordsOf n).toNat = n.toNat / 32 := by
  have inRange : n.toNat / 32 < 8 := by omega
  simpa [wordsOf, Nat.shiftRight_eq_div_pow] using inRange

@[simp] theorem remainderOf_toNat (n : BitVec 8) : (remainderOf n).toNat = n.toNat % 32 := by
  simp [remainderOf]

/-- R175: the added word is there exactly when the low five bits leave a rest, and the sum does not wrap. -/
@[simp] theorem ceil32_toNat (n : Word) : (ceil32 n).toNat = (n.toNat + 31) / 32 := by
  have words : (n >>> 5).toNat = n.toNat / 32 := by simp [Nat.shiftRight_eq_div_pow]
  have rest : (n.extractLsb' 0 5).toNat = n.toNat % 32 := by simp
  have bound := n.isLt
  unfold ceil32
  split
  · next even =>
    rw [even] at rest
    simp only [BitVec.toNat_add, words, BitVec.toNat_ofNat] at rest ⊢
    omega
  · next odd =>
    have someRest : n.toNat % 32 ≠ 0 := fun zero => odd (BitVec.eq_of_toNat_eq (rest.trans zero))
    simp only [BitVec.toNat_add, words, BitVec.toNat_ofNat]
    omega

theorem succ_toNat {x : Word} (h : x.toNat + 1 < 2 ^ 32) : (x + 1#32).toNat = x.toNat + 1 := by
  rw [BitVec.toNat_add]
  exact Nat.mod_eq_of_lt h

theorem pred_toNat {w : Nat} {x : BitVec (w + 1)} (h : 1 ≤ x.toNat) : (x - 1#(w + 1)).toNat = x.toNat - 1 := by
  have oneLe : 1#(w + 1) ≤ x := by simpa [BitVec.le_def] using h
  rw [BitVec.toNat_sub_of_le oneLe]
  simp

theorem one_le_toNat {w : Nat} {x : BitVec w} (h : x ≠ 0#w) : 1 ≤ x.toNat := by
  rw [Nat.one_le_iff_ne_zero]
  exact fun zero => h (BitVec.eq_of_toNat_eq (by simpa using zero))

/-- R174: inside its range `BUDGET - 1` is the number below. -/
theorem decBudget_toNat {b : Word} (h : 1 ≤ b.toNat) : (decBudget b).toNat = b.toNat - 1 := by
  have notZero : b ≠ 0#32 := by rintro rfl; simp at h
  rw [decBudget, if_neg notZero, pred_toNat h]

/-- R174: inside its range `WCNT - 1` is the number below. -/
theorem decWcnt_toNat {n : BitVec 3} (h : 1 ≤ n.toNat) : (decWcnt n).toNat = n.toNat - 1 := by
  have notZero : n ≠ 0#3 := by rintro rfl; simp at h
  rw [decWcnt, if_neg notZero, pred_toNat h]

/-! ### The words of a supplied table -/

/-- The four bytes of a word, put together again. -/
theorem append_bytes (w : Word) :
    w.extractLsb' 24 8 ++ w.extractLsb' 16 8 ++ w.extractLsb' 8 8 ++ w.extractLsb' 0 8 = w := by
  apply BitVec.eq_of_getLsbD_eq
  intro k hk
  simp only [BitVec.getLsbD_append, BitVec.getLsbD_extractLsb']
  grind

/-- The cells of the first word of a table are not met above it. -/
theorem readByte_tableCells_above {j a : Nat} (w : Word) (ws : List Word) (h : 4 * j + 4 ≤ a) :
    Memory.readByte (tableCells j (w :: ws)) a = Memory.readByte (tableCells (j + 1) ws) a := by
  simp only [tableCells_cons, Memory.readByte_cons]
  rw [if_neg (by omega), if_neg (by omega), if_neg (by omega), if_neg (by omega)]

/-- The cells of a table from index `j` on hold its word `i` as word `j + i`. -/
theorem tableWord_tableCells (ws : List Word) : ∀ j i, tableWord (tableCells j ws) (j + i) = ws[i]? := by
  induction ws with
  | nil => intro j i; rfl
  | cons w ws ih =>
    intro j i
    cases i with
    | zero => simp [tableWord, tableCells_cons, Memory.readByte_cons, append_bytes]
    | succ i =>
      have later := ih (j + 1) i
      rw [show j + 1 + i = j + (i + 1) by omega] at later
      rw [List.getElem?_cons_succ, ← later]
      simp only [tableWord]
      rw [readByte_tableCells_above w ws (by omega), readByte_tableCells_above w ws (by omega),
        readByte_tableCells_above w ws (by omega), readByte_tableCells_above w ws (by omega)]

/-- R24: word `i` of the table space is word `i` of the table the host supplied. -/
theorem tableWord_ofWords (ws : List Word) (i : Nat) : tableWord (Memory.ofWords ws) i = ws[i]? := by
  simpa [Memory.ofWords] using tableWord_tableCells ws 0 i

end Sys2Proof.Machine
end

section
/-! Proofs about what each operation writes and leaves alone (10_state.md R18, R24, R29, R30). The frames come first, one
for each command and sequencer operation; what no operation touches is read off them. -/

namespace Sys2Proof.Machine

/-! ### Frames: the row of each operation in the access table (R29) -/

/-- The end of a check writes `POLL`, `VERDICT`, `RESULT` and `PHASE` at most. -/
theorem endOfCheck_writes (s : State) (p : PollState) :
    ∃ r ph, s.endOfCheck p = { s with poll := p, verdict := verdictOf p, result := r, phase := ph } := by
  unfold State.endOfCheck
  dsimp only
  split
  · exact ⟨.ok, .ready, rfl⟩
  · split
    · exact ⟨s.result, .hdr, rfl⟩
    · exact ⟨.engineTimeout, .ready, rfl⟩

section Frames

variable {s t : State}

theorem exec_isIdle_of_busy (m : Word) (h : s.phase ≠ .ready) : exec (.isIdle m) s = .next s :=
  if_neg h

theorem exec_programChain_of_busy (c l n : Word) (tbl : List Word) (h : s.phase ≠ .ready) :
    exec (.programChain c l n tbl) s = .next s :=
  if_neg h

theorem exec_isIdle_of_ready (m : Word) (h : s.phase = .ready) :
    exec (.isIdle m) s = .next { s with op := 0#1, maxi := m, result := .none, phase := .monStart } :=
  if_pos h

theorem exec_programChain_of_ready (c l n : Word) (tbl : List Word) (h : s.phase = .ready) :
    exec (.programChain c l n tbl) s =
      .next
        { s with
          op := 1#1, chainId := c, len := l, tableLen := n, maxi := s.params.maxIter
          result := .none, phase := .validate, table := Memory.ofWords tbl } :=
  if_pos h

theorem exec_isIdle_frame {m : Word} (h : exec (.isIdle m) s = .next t) :
    t = { s with op := t.op, maxi := t.maxi, result := t.result, phase := t.phase } := by
  by_cases ready : s.phase = .ready
  · rw [exec_isIdle_of_ready m ready] at h; cases h; rfl
  · rw [exec_isIdle_of_busy m ready] at h; cases h; rfl

theorem exec_programChain_frame {c l n : Word} {tbl : List Word} (h : exec (.programChain c l n tbl) s = .next t) :
    t = { s with
          op := t.op, chainId := t.chainId, len := t.len, tableLen := t.tableLen, maxi := t.maxi
          result := t.result, phase := t.phase, table := t.table } := by
  by_cases ready : s.phase = .ready
  · rw [exec_programChain_of_ready c l n tbl ready] at h; cases h; rfl
  · rw [exec_programChain_of_busy c l n tbl ready] at h; cases h; rfl

theorem exec_validate_frame (h : exec .validate s = .next t) :
    t = { s with result := t.result, phase := t.phase } := by
  obtain ⟨-, rfl⟩ | ⟨-, -, rfl⟩ := execValidate_cases h <;> rfl

theorem exec_select_frame (h : exec .select s = .next t) :
    t = { s with trace := t.trace, en := t.en, phase := t.phase } := by
  cases h; rfl

theorem exec_plan_frame (h : exec .plan s = .next t) :
    t = { s with fullLeft := t.fullLeft, res := t.res, idx := t.idx, phase := t.phase } := by
  cases h; rfl

theorem exec_chunk_frame (h : exec .chunk s = .next t) :
    t = { s with
          fullLeft := t.fullLeft, res := t.res, curL := t.curL, result := t.result, phase := t.phase } := by
  obtain ⟨-, rfl⟩ | ⟨-, -, rfl⟩ | ⟨-, -, rfl⟩ := execChunk_cases h <;> rfl

theorem exec_check_frame (h : exec .check s = .next t) :
    t = { s with
          budget := t.budget, poll := t.poll, verdict := t.verdict, result := t.result, phase := t.phase } := by
  obtain ⟨-, ended⟩ | ⟨-, rfl⟩ := execCheck_cases h
  · obtain ⟨r, ph, writes⟩ := endOfCheck_writes s .timedOut
    rw [ended, writes]
  · rfl

theorem exec_poll_frame (h : exec .poll s = .next t) :
    t = { s with
          budget := t.budget, poll := t.poll, verdict := t.verdict, result := t.result, phase := t.phase
          trace := t.trace, answers := t.answers, reads := t.reads } := by
  obtain ⟨-, ended⟩ | ⟨-, -, ended⟩ | ⟨-, -, rfl⟩ := execPoll_cases h
  · obtain ⟨r, ph, writes⟩ := endOfCheck_writes s.readStat .idle
    rw [ended, writes]
    rfl
  · obtain ⟨r, ph, writes⟩ := endOfCheck_writes { s.readStat with budget := decBudget s.budget } .timedOut
    rw [ended, writes]
    rfl
  · rfl

theorem exec_hdr_frame (h : exec .hdr s = .next t) :
    t = { s with wcnt := t.wcnt, rem := t.rem, phase := t.phase, trace := t.trace } := by
  cases h; rfl

theorem exec_dataw_frame (h : exec .dataw s = .next t) :
    t = { s with idx := t.idx, wcnt := t.wcnt, phase := t.phase, trace := t.trace } := by
  obtain ⟨w, -, rfl⟩ := execDataw_cases h
  rfl

theorem exec_remw_frame (h : exec .remw s = .next t) :
    t = { s with idx := t.idx, rem := t.rem, phase := t.phase, trace := t.trace, draws := t.draws } := by
  obtain ⟨w, -, rfl⟩ := execRemw_cases h
  rfl

end Frames

/-- Settles O38: the frames, one for each row of the access table. -/
theorem operationsWriteOnlyTheirLatches : Obligations.OperationsWriteOnlyTheirLatches := fun _ _ =>
  ⟨fun _ => exec_isIdle_frame, fun _ _ _ _ => exec_programChain_frame, exec_validate_frame, exec_select_frame,
    exec_plan_frame, exec_chunk_frame, exec_check_frame, exec_poll_frame, exec_hdr_frame, exec_dataw_frame,
    exec_remw_frame⟩

/-! ### What comes from outside the block -/

/-- What a run is given from outside and the operations only read: the parameters (R18), the table (R24), the offers
and the placed operation. One value, so that a frame carries over to all of it at once. -/
def State.inputs (s : State) : Params × Memory × List CmdRecord × Option Encoded :=
  (s.params, s.table, s.offers, s.placed)

theorem inputs_eq_iff {s t : State} :
    t.inputs = s.inputs ↔ t.params = s.params ∧ t.table = s.table ∧ t.offers = s.offers ∧ t.placed = s.placed := by
  simp [State.inputs]

theorem inputs_of_frame {s t u : State} (frame : t = u) (same : u.inputs = s.inputs) : t.inputs = s.inputs :=
  frame ▸ same

/-- An operation leaves everything that comes from outside as it was, except that accepting a `PROGRAM_CHAIN` takes the
table that came with it. -/
theorem exec_inputs_cases {i : Instr} {s t : State} (h : exec i s = .next t) :
    t.inputs = s.inputs ∨
      ∃ c l n tbl, i = .programChain c l n tbl ∧ s.phase = .ready ∧
        t.inputs = ({ s with table := Memory.ofWords tbl } : State).inputs := by
  cases i with
  | isIdle m => exact .inl (inputs_of_frame (exec_isIdle_frame h) rfl)
  | programChain c l n tbl =>
    by_cases ready : s.phase = .ready
    · rw [exec_programChain_of_ready c l n tbl ready] at h
      cases h
      exact .inr ⟨c, l, n, tbl, rfl, ready, rfl⟩
    · rw [exec_programChain_of_busy c l n tbl ready] at h
      cases h
      exact .inl rfl
  | validate => exact .inl (inputs_of_frame (exec_validate_frame h) rfl)
  | select => exact .inl (inputs_of_frame (exec_select_frame h) rfl)
  | plan => exact .inl (inputs_of_frame (exec_plan_frame h) rfl)
  | chunk => exact .inl (inputs_of_frame (exec_chunk_frame h) rfl)
  | check => exact .inl (inputs_of_frame (exec_check_frame h) rfl)
  | poll => exact .inl (inputs_of_frame (exec_poll_frame h) rfl)
  | hdr => exact .inl (inputs_of_frame (exec_hdr_frame h) rfl)
  | dataw => exact .inl (inputs_of_frame (exec_dataw_frame h) rfl)
  | remw => exact .inl (inputs_of_frame (exec_remw_frame h) rfl)
  | rdStat => cases h; exact .inl rfl
  | wrEn v => cases h; exact .inl rfl
  | wrFifo1 v => cases h; exact .inl rfl
  | wrFifo2 v => cases h; exact .inl rfl
  | wrFifo4 v => cases h; exact .inl rfl
  | tdiTdoHdr l => cases h; exact .inl rfl

/-- Settles O37: what comes from outside stays, and the one exception is an accepted `PROGRAM_CHAIN`. -/
theorem operationsLeaveParametersAndTable : Obligations.OperationsLeaveParametersAndTable := by
  intro i s t h
  obtain same | ⟨c, l, n, tbl, isChain, ready, same⟩ := exec_inputs_cases h
  · obtain ⟨params, table, -, -⟩ := inputs_eq_iff.1 same
    exact ⟨params, fun _ a => by rw [table]⟩
  · obtain ⟨params, -, -, -⟩ := inputs_eq_iff.1 same
    exact ⟨params, fun notAccepted => absurd ready (notAccepted c l n tbl isChain)⟩

/-- Settles O47: the table stays, or it is one just supplied, which is in canonical form. -/
theorem tableSpaceStaysCanonical : Obligations.TableSpaceStaysCanonical := by
  intro i s t canonical h
  obtain same | ⟨c, l, n, tbl, -, -, same⟩ := exec_inputs_cases h
  · obtain ⟨-, table, -, -⟩ := inputs_eq_iff.1 same
    rw [table]
    exact canonical
  · obtain ⟨-, table, -, -⟩ := inputs_eq_iff.1 same
    rw [table]
    exact Memory.ofWords_wf tbl

/-! ### A step with nothing placed from outside -/

/-- With nothing placed from outside a step is a reset, no change, the acceptance of the first offer, or the operation
that `PHASE` selects. -/
theorem step_cases_unplaced {s t : State} (unplaced : s.placed = none) (h : step s = .next t) :
    (s.resetRequest = true ∧ t = s.blockReset) ∨
      t = s ∨
      (s.phase = .ready ∧ ∃ r rest, s.offers = r :: rest ∧ exec (decodeCmd r) { s with offers := rest } = .next t) ∨
      (s.phase ≠ .ready ∧ ∃ i, decode (.seq s.phase.code) = .ok i ∧ exec i s = .next t) := by
  obtain reset | ⟨-, -, same⟩ | ⟨-, -, e, i, fetched, decoded, ⟨-, -, same⟩ | ⟨-, ran⟩⟩ := step_cases h
  · exact .inl reset
  · exact .inr (.inl same)
  · exact .inr (.inl same)
  · by_cases ready : s.phase = .ready
    · cases offers : s.offers with
      | nil => rw [fetch_ready_none unplaced ready offers] at fetched; cases fetched
      | cons r rest =>
        rw [fetch_ready_offer unplaced ready offers] at fetched
        cases fetched
        cases decoded
        rw [consume_ready unplaced ready, offers] at ran
        exact .inr (.inr (.inl ⟨ready, r, rest, rfl, ran⟩))
    · rw [fetch_busy unplaced ready] at fetched
      cases fetched
      rw [consume_busy unplaced ready] at ran
      exact .inr (.inr (.inr ⟨ready, i, decoded, ran⟩))

/-- R30: a step of a busy block leaves the host's offers alone. -/
theorem step_offers_of_busy {s t : State} (own : Safety.Undisturbed s) (busy : s.phase ≠ .ready)
    (h : step s = .next t) : t.offers = s.offers := by
  obtain ⟨noReset, unplaced, -⟩ := own
  obtain ⟨reset, -⟩ | rfl | ⟨ready, -⟩ | ⟨-, i, -, ran⟩ := step_cases_unplaced unplaced h
  · rw [noReset] at reset; cases reset
  · rfl
  · exact absurd ready busy
  · obtain same | ⟨c, l, n, tbl, -, ready, -⟩ := exec_inputs_cases ran
    · obtain ⟨-, -, offers, -⟩ := inputs_eq_iff.1 same
      exact offers
    · exact absurd ready busy

/-- Settles O3: both commands meet their busy branch, and no operation touches the offers. -/
theorem busyBlockHoldsCommandsOff : Obligations.BusyBlockHoldsCommandsOff := fun s =>
  ⟨by simp [State.busyNow], fun busy =>
    ⟨fun m => exec_isIdle_of_busy m busy, fun c l n tbl => exec_programChain_of_busy c l n tbl busy,
      fun own _ h => step_offers_of_busy own busy h⟩⟩

/-! ### The state after reset -/

/-- R176: a `READY` block that no command is offered to stays as it is. -/
theorem step_ready_unoffered {s : State} (own : Safety.Undisturbed s) (ready : s.phase = .ready)
    (unoffered : s.offers = []) : step s = .next s := by
  obtain ⟨noReset, unplaced, -⟩ := own
  simp [step, noReset, fetch_ready_none unplaced ready unoffered]

/-- A state that steps to itself is all that a run from it reaches. -/
theorem leads_self {s : State} (fixed : step s = .next s) : ∀ k, Safety.Leads k s s := by
  intro k
  induction k with
  | zero => exact Safety.leads_zero.2 rfl
  | succ k ih => exact Safety.leads_succ.2 ⟨s, fixed, ih⟩

/-- Settles O40: nothing is offered after reset, so the block waits. -/
theorem resetBlockIsReadyAndSilent : Obligations.ResetBlockIsReadyAndSilent :=
  ⟨rfl, rfl, rfl, leads_self (step_ready_unoffered ⟨rfl, rfl, rfl⟩ rfl rfl)⟩

end Sys2Proof.Machine
end

section
/-! Proofs about the invariant of the latches (10_state.md R12, 42_chain_programmer.md R147 to R150). It falls into a part
about what comes from outside, which depends on `State.inputs` only, and a part about the latches; the second is kept by
one lemma per operation, each of which does the account of bits and words for its phase. -/

namespace Sys2Proof.Safety

open Sys2Proof.Machine

/-! ### The two parts of the invariant -/

/-- The part of `Inv` about what comes from outside. -/
def InputsInv (s : State) : Prop :=
  s.placed = none ∧ Memory.wf s.table ∧ ∀ r ∈ s.offers, (decodeCmd r).wellFormed = true

/-- The part of `Inv` about the block's own latches. -/
def LatchInv (s : State) : Prop :=
  (s.phase ≠ .ready → s.result = .none) ∧ PhaseInv s

theorem inv_iff {s : State} : Inv s ↔ InputsInv s ∧ LatchInv s :=
  ⟨fun h => ⟨⟨h.nothingPlaced, h.tableCanonical, h.offersWellFormed⟩, h.noResultWhileBusy, h.latches⟩,
    fun ⟨⟨placed, table, offers⟩, result, latches⟩ => ⟨placed, table, offers, result, latches⟩⟩

/-- Operations keep the part about what comes from outside: they leave all of it alone, or take a table that was just
supplied. -/
theorem exec_keeps_inputsInv {i : Instr} {s t : State} (inputs : InputsInv s) (h : exec i s = .next t) :
    InputsInv t := by
  obtain ⟨placed, table, offers⟩ := inputs
  have canonical := tableSpaceStaysCanonical i s t table h
  obtain same | ⟨c, l, n, tbl, -, -, same⟩ := exec_inputs_cases h <;>
  · obtain ⟨-, -, sameOffers, samePlaced⟩ := inputs_eq_iff.1 same
    exact ⟨samePlaced.trans placed, canonical, fun r hr => offers r (sameOffers ▸ hr)⟩

/-! ### What holds of the latches in each phase -/

section Phases

variable {s : State}

theorem phaseInv_validate (h : s.phase = .validate) :
    PhaseInv s ↔ s.op = 1#1 ∧ TableSupplied s ∧ s.maxi = s.params.maxIter := by
  rw [PhaseInv, h]

theorem phaseInv_select (h : s.phase = .select) : PhaseInv s ↔ Programming s := by
  rw [PhaseInv, h]

theorem phaseInv_plan (h : s.phase = .plan) : PhaseInv s ↔ Programming s := by
  rw [PhaseInv, h]

theorem phaseInv_nextChunk (h : s.phase = .nextChunk) : PhaseInv s ↔ Programming s ∧ BetweenChunks s := by
  rw [PhaseInv, h]

theorem phaseInv_monStart (h : s.phase = .monStart) :
    PhaseInv s ↔ s.op = 0#1 ∨ (Programming s ∧ ChunkStarted s) := by
  rw [PhaseInv, h]

theorem phaseInv_monRead (h : s.phase = .monRead) :
    PhaseInv s ↔
      s.poll = .polling ∧ 1 ≤ s.budget.toNat ∧ s.budget.toNat ≤ s.maxi.toNat ∧
        (s.op = 0#1 ∨ (Programming s ∧ ChunkStarted s)) := by
  rw [PhaseInv, h]

theorem phaseInv_hdr (h : s.phase = .hdr) : PhaseInv s ↔ s.poll = .idle ∧ Programming s ∧ ChunkStarted s := by
  rw [PhaseInv, h]

theorem phaseInv_data (h : s.phase = .data) : PhaseInv s ↔ Programming s ∧ SendingWords s := by
  rw [PhaseInv, h]

theorem phaseInv_remw (h : s.phase = .remw) : PhaseInv s ↔ Programming s ∧ RemainderLeft s := by
  rw [PhaseInv, h]

/-- In `READY` nothing is asked of the latches. -/
theorem latchInv_of_ready (h : s.phase = .ready) : LatchInv s :=
  ⟨fun busy => absurd h busy, by rw [PhaseInv, h]; trivial⟩

/-- In any other phase there is no result, and the latches are as the phase says. -/
theorem latchInv_of_noResult (result : s.result = .none) (latches : PhaseInv s) : LatchInv s :=
  ⟨fun _ => result, latches⟩

end Phases

/-! ### The operations, each from its own phase -/

section Operations

variable {s t : State}

/-- An accepted command starts with what its phase asks for; the table supplied with a well-formed `PROGRAM_CHAIN` has
every word that `TABLE_LEN` counts. -/
theorem latchInv_of_accepted {r : CmdRecord} (wellFormed : (decodeCmd r).wellFormed = true) (ready : s.phase = .ready)
    (h : exec (decodeCmd r) s = .next t) : LatchInv t := by
  by_cases isIdle : r.op = 0#1
  · rw [decodeCmd, if_pos isIdle, exec_isIdle_of_ready _ ready] at h
    cases h
    exact latchInv_of_noResult rfl ((phaseInv_monStart rfl).2 (.inl rfl))
  · rw [decodeCmd, if_neg isIdle] at wellFormed h
    rw [exec_programChain_of_ready _ _ _ _ ready] at h
    cases h
    have length : r.table.length = r.tableLen.toNat := by simpa [Instr.wellFormed] using wellFormed
    refine latchInv_of_noResult rfl ((phaseInv_validate rfl).2 ⟨rfl, fun i inside => ?_, rfl⟩)
    rw [← length] at inside
    simpa [tableWord_ofWords] using inside

/-- `VALIDATE` goes on only with a chain identifier and a table length that fit. -/
theorem latchInv_of_validate (result : s.result = .none)
    (started : s.op = 1#1 ∧ TableSupplied s ∧ s.maxi = s.params.maxIter) (h : exec .validate s = .next t) :
    LatchInv t := by
  obtain ⟨-, rfl⟩ | ⟨chainFits, tableFits, rfl⟩ := execValidate_cases h
  · exact latchInv_of_ready rfl
  · obtain ⟨op, supplied, maxi⟩ := started
    have chain : s.chainId.toNat ≤ 3 := Nat.le_of_not_lt chainFits
    have table : (ceil32 s.len).toNat ≤ s.tableLen.toNat := Nat.le_of_not_lt tableFits
    exact latchInv_of_noResult result ((phaseInv_select rfl).2 ⟨op, supplied, chain, table, maxi⟩)

theorem latchInv_of_select (result : s.result = .none) (prog : Programming s) (h : exec .select s = .next t) :
    LatchInv t := by
  cases h
  exact latchInv_of_noResult result ((phaseInv_plan rfl).2 prog)

/-- `PLAN` puts the whole length on the side of the bits left. -/
theorem latchInv_of_plan (result : s.result = .none) (prog : Programming s) (h : exec .plan s = .next t) :
    LatchInv t := by
  cases h
  have account : 32 * 0 + (128 * (fullChunksOf s.len).toNat + (residualOf s.len).toNat) = s.len.toNat := by
    rw [fullChunksOf_toNat, residualOf_toNat]
    omega
  exact latchInv_of_noResult result ((phaseInv_nextChunk rfl).2 ⟨prog, .inl ⟨rfl, account⟩⟩)

/-- While bits are left the words used and the bits left make up the length. -/
theorem account_of_bitsLeft (between : BetweenChunks s) (left : bitsLeft s ≠ 0) :
    s.idx.toNat % 4 = 0 ∧ 32 * s.idx.toNat + bitsLeft s = s.len.toNat :=
  between.resolve_right fun done => left done.1

/-- `CHUNK` moves 128 bits, or the residual, from the bits left to the chunk. -/
theorem latchInv_of_chunk (result : s.result = .none) (prog : Programming s) (between : BetweenChunks s)
    (h : exec .chunk s = .next t) : LatchInv t := by
  obtain ⟨full, rfl⟩ | ⟨noFull, residual, rfl⟩ | ⟨-, -, rfl⟩ := execChunk_cases h
  · have pos : 1 ≤ s.fullLeft.toNat := full
    obtain ⟨aligned, account⟩ := account_of_bitsLeft between (by rw [bitsLeft]; omega)
    have account' : 32 * s.idx.toNat + 128 + (128 * (s.fullLeft - 1#32).toNat + s.res.toNat) = s.len.toNat := by
      rw [bitsLeft] at account
      rw [pred_toNat pos]
      omega
    exact latchInv_of_noResult result ((phaseInv_monStart rfl).2
      (.inr ⟨prog, Nat.one_le_ofNat, Nat.le_refl 128, aligned, account', .inl rfl⟩))
  · have pos : 1 ≤ s.res.toNat := residual
    have noChunks : s.fullLeft.toNat = 0 := Nat.eq_zero_of_not_pos noFull
    have curL : (s.res.setWidth 8).toNat = s.res.toNat := BitVec.toNat_setWidth_of_le (by decide)
    obtain ⟨aligned, account⟩ := account_of_bitsLeft between (by rw [bitsLeft]; omega)
    have noBits : 128 * s.fullLeft.toNat + 0 = 0 := by rw [noChunks]
    have account' : 32 * s.idx.toNat + (s.res.setWidth 8).toNat + (128 * s.fullLeft.toNat + 0) = s.len.toNat := by
      rw [bitsLeft] at account
      rw [curL]
      omega
    have starts : 1 ≤ (s.res.setWidth 8).toNat ∧ (s.res.setWidth 8).toNat ≤ 128 := by
      rw [curL]
      omega
    exact latchInv_of_noResult result ((phaseInv_monStart rfl).2
      (.inr ⟨prog, starts.1, starts.2, aligned, account', .inr noBits⟩))
  · exact latchInv_of_ready rfl

/-- A check that times out ends the command. -/
theorem latchInv_of_timedOut (s : State) : LatchInv (s.endOfCheck .timedOut) := by
  apply latchInv_of_ready
  by_cases op : s.op = 0#1
  · rw [endOfCheck_isIdle _ op]
  · rw [endOfCheck_timedOut op]

/-- A check that ends `Idle` ends an `IS_IDLE`, and lets a started chunk go on. -/
theorem latchInv_of_idle (result : s.result = .none) (running : s.op = 0#1 ∨ (Programming s ∧ ChunkStarted s)) :
    LatchInv (s.endOfCheck .idle) := by
  obtain op | ⟨prog, chunk⟩ := running
  · rw [endOfCheck_isIdle _ op]
    exact latchInv_of_ready rfl
  · have op : s.op ≠ 0#1 := by rw [prog.1]; decide
    rw [endOfCheck_idle op]
    exact latchInv_of_noResult result ((phaseInv_hdr rfl).2 ⟨rfl, prog, chunk⟩)

theorem latchInv_of_check (result : s.result = .none) (running : s.op = 0#1 ∨ (Programming s ∧ ChunkStarted s))
    (h : exec .check s = .next t) : LatchInv t := by
  obtain ⟨-, rfl⟩ | ⟨budget, rfl⟩ := execCheck_cases h
  · exact latchInv_of_timedOut s
  · have pos : 1 ≤ s.maxi.toNat := one_le_toNat budget
    exact latchInv_of_noResult result ((phaseInv_monRead rfl).2 ⟨rfl, pos, Nat.le_refl _, running⟩)

/-- `POLL` goes on polling only while the budget it leaves is not 0. -/
theorem latchInv_of_poll (result : s.result = .none) (poll : s.poll = .polling) (pos : 1 ≤ s.budget.toNat)
    (within : s.budget.toNat ≤ s.maxi.toNat) (running : s.op = 0#1 ∨ (Programming s ∧ ChunkStarted s))
    (h : exec .poll s = .next t) : LatchInv t := by
  obtain ⟨-, rfl⟩ | ⟨-, -, rfl⟩ | ⟨-, left, rfl⟩ := execPoll_cases h
  · exact latchInv_of_idle (s := s.readStat) result running
  · exact latchInv_of_timedOut _
  · have posLeft : 1 ≤ (decBudget s.budget).toNat := one_le_toNat left
    have leftWithin : (decBudget s.budget).toNat ≤ s.maxi.toNat := by
      rw [decBudget_toNat pos]
      exact (Nat.sub_le _ _).trans within
    exact latchInv_of_noResult result ((phaseInv_monRead rfl).2 ⟨poll, posLeft, leftWithin, running⟩)

/-- `HDR` splits the chunk into its words and its remainder, which make up `CUR_L` (R147); only the last chunk has a
remainder (R150). -/
theorem latchInv_of_hdr (result : s.result = .none) (prog : Programming s) (chunk : ChunkStarted s)
    (h : exec .hdr s = .next t) : LatchInv t := by
  obtain ⟨pos, le, aligned, account, last⟩ := chunk
  have parts : 32 * (wordsOf s.curL).toNat + (remainderOf s.curL).toNat = s.curL.toNat := by
    rw [wordsOf_toNat, remainderOf_toNat]
    omega
  cases h
  by_cases words : wordsOf s.curL > 0#3
  · have someWords : 1 ≤ (wordsOf s.curL).toNat := words
    have atMostFour : (wordsOf s.curL).toNat ≤ 4 := by omega
    have account' : 32 * s.idx.toNat + 32 * (wordsOf s.curL).toNat + (remainderOf s.curL).toNat + bitsLeft s =
        s.len.toNat := by omega
    have wholeOrLast : bitsLeft s = 0 ∨
        (remainderOf s.curL = 0#5 ∧ (s.idx.toNat + (wordsOf s.curL).toNat) % 4 = 0) :=
      last.symm.imp_right fun full =>
        ⟨BitVec.eq_of_toNat_eq (by rw [remainderOf_toNat, full]; rfl), by rw [wordsOf_toNat]; omega⟩
    exact latchInv_of_noResult result
      ((phaseInv_data (if_pos words)).2 ⟨prog, someWords, atMostFour, account', wholeOrLast⟩)
  · have noWords : (wordsOf s.curL).toNat = 0 := Nat.eq_zero_of_not_pos words
    have someRem : remainderOf s.curL ≠ 0#5 := fun noRem => by
      rw [noRem, noWords] at parts
      exact absurd parts (Nat.ne_of_lt pos)
    have noBits : bitsLeft s = 0 := last.resolve_left fun full => by
      rw [wordsOf_toNat, full] at noWords
      cases noWords
    have account' : 32 * s.idx.toNat + (remainderOf s.curL).toNat = s.len.toNat := by omega
    exact latchInv_of_noResult result
      ((phaseInv_remw (if_neg words)).2 ⟨prog, BitVec.eq_of_toNat_eq noWords, someRem, noBits, account'⟩)

/-- The account of bits keeps `IDX` in its range. -/
theorem idx_succ_toNat (account : 32 * s.idx.toNat ≤ s.len.toNat) : (s.idx + 1#32).toNat = s.idx.toNat + 1 :=
  succ_toNat (by have := s.len.isLt; omega)

/-- `DATAW` sends one word of the chunk; what is left of it decides the phase (R139). -/
theorem latchInv_of_dataw (result : s.result = .none) (prog : Programming s) (sending : SendingWords s)
    (h : exec .dataw s = .next t) : LatchInv t := by
  obtain ⟨pos, le, account, last⟩ := sending
  obtain ⟨w, -, rfl⟩ := execDataw_cases h
  have idx : (s.idx + 1#32).toNat = s.idx.toNat + 1 := idx_succ_toNat (by omega)
  have wcnt : (decWcnt s.wcnt).toNat = s.wcnt.toNat - 1 := decWcnt_toNat pos
  have account' : 32 * (s.idx + 1#32).toNat + 32 * (decWcnt s.wcnt).toNat + s.rem.toNat + bitsLeft s =
      s.len.toNat := by omega
  by_cases words : decWcnt s.wcnt > 0#3
  · have someWords : 1 ≤ (decWcnt s.wcnt).toNat := words
    have atMostFour : (decWcnt s.wcnt).toNat ≤ 4 := by omega
    have wholeOrLast : bitsLeft s = 0 ∨
        (s.rem = 0#5 ∧ ((s.idx + 1#32).toNat + (decWcnt s.wcnt).toNat) % 4 = 0) :=
      last.imp_right fun ⟨noRem, aligned⟩ => ⟨noRem, by omega⟩
    exact latchInv_of_noResult result
      ((phaseInv_data (if_pos words)).2 ⟨prog, someWords, atMostFour, account', wholeOrLast⟩)
  have noWords : (decWcnt s.wcnt).toNat = 0 := Nat.eq_zero_of_not_pos words
  by_cases remainder : s.rem > 0#5
  · have someRem : s.rem ≠ 0#5 := fun noRem => absurd remainder (noRem ▸ BitVec.lt_irrefl _)
    have noBits : bitsLeft s = 0 := last.resolve_right fun whole => someRem whole.1
    have account'' : 32 * (s.idx + 1#32).toNat + s.rem.toNat = s.len.toNat := by omega
    exact latchInv_of_noResult result ((phaseInv_remw ((if_neg words).trans (if_pos remainder))).2
      ⟨prog, BitVec.eq_of_toNat_eq noWords, someRem, noBits, account''⟩)
  · have noRem : s.rem.toNat = 0 := Nat.eq_zero_of_not_pos remainder
    have between : bitsLeft s = 0 ∧ s.idx + 1#32 = ceil32 s.len ∨
        (s.idx + 1#32).toNat % 4 = 0 ∧ 32 * (s.idx + 1#32).toNat + bitsLeft s = s.len.toNat := by
      refine last.imp (fun noBits => ⟨noBits, BitVec.eq_of_toNat_eq ?_⟩) fun ⟨_, aligned⟩ => by omega
      rw [ceil32_toNat]
      omega
    exact latchInv_of_noResult result
      ((phaseInv_nextChunk ((if_neg words).trans (if_neg remainder))).2 ⟨prog, between.symm⟩)

/-- `REMW` sends the rest of the last chunk: all `ceil32(LEN)` words have then been used (R148). -/
theorem latchInv_of_remw (result : s.result = .none) (prog : Programming s) (remainder : RemainderLeft s)
    (h : exec .remw s = .next t) : LatchInv t := by
  obtain ⟨-, someRem, noBits, account⟩ := remainder
  obtain ⟨w, -, rfl⟩ := execRemw_cases h
  have pos := one_le_toNat someRem
  have allUsed : s.idx + 1#32 = ceil32 s.len := BitVec.eq_of_toNat_eq (by
    rw [idx_succ_toNat (by omega), ceil32_toNat]
    omega)
  exact latchInv_of_noResult result ((phaseInv_nextChunk rfl).2 ⟨prog, .inr ⟨noBits, allUsed⟩⟩)

/-- The operation that `PHASE` selects keeps the part about the latches. -/
theorem latchInv_of_phase_operation {i : Instr} (latch : LatchInv s) (busy : s.phase ≠ .ready)
    (decoded : decode (.seq s.phase.code) = .ok i) (h : exec i s = .next t) : LatchInv t := by
  obtain ⟨noResult, latches⟩ := latch
  have result := noResult busy
  cases phase : s.phase <;> rw [phase] at decoded
  case ready => exact absurd phase busy
  case validate =>
    cases decoded
    exact latchInv_of_validate result ((phaseInv_validate phase).1 latches) h
  case select =>
    cases decoded
    exact latchInv_of_select result ((phaseInv_select phase).1 latches) h
  case plan =>
    cases decoded
    exact latchInv_of_plan result ((phaseInv_plan phase).1 latches) h
  case nextChunk =>
    cases decoded
    obtain ⟨prog, between⟩ := (phaseInv_nextChunk phase).1 latches
    exact latchInv_of_chunk result prog between h
  case monStart =>
    cases decoded
    exact latchInv_of_check result ((phaseInv_monStart phase).1 latches) h
  case monRead =>
    cases decoded
    obtain ⟨poll, pos, within, running⟩ := (phaseInv_monRead phase).1 latches
    exact latchInv_of_poll result poll pos within running h
  case hdr =>
    cases decoded
    obtain ⟨-, prog, chunk⟩ := (phaseInv_hdr phase).1 latches
    exact latchInv_of_hdr result prog chunk h
  case data =>
    cases decoded
    obtain ⟨prog, sending⟩ := (phaseInv_data phase).1 latches
    exact latchInv_of_dataw result prog sending h
  case remw =>
    cases decoded
    obtain ⟨prog, remainder⟩ := (phaseInv_remw phase).1 latches
    exact latchInv_of_remw result prog remainder h

end Operations

/-! ### The invariant at reset and from step to step -/

/-- Settles O43: the block is `READY`, with nothing placed, supplied or offered. -/
theorem resetMeetsTheInvariant : Obligations.ResetMeetsTheInvariant :=
  inv_iff.2 ⟨⟨rfl, reset_table_wf, by rintro r ⟨⟩⟩, latchInv_of_ready rfl⟩

/-- Settles O44: a step is a reset, no change, an accepted command, or the operation that `PHASE` selects. -/
theorem stepKeepsTheInvariant : Obligations.StepKeepsTheInvariant := by
  intro s t inv h
  obtain ⟨inputs, latch⟩ := inv_iff.1 inv
  obtain ⟨unplaced, table, offers⟩ := inputs
  obtain ⟨-, rfl⟩ | rfl | ⟨ready, r, rest, offered, ran⟩ | ⟨busy, i, decoded, ran⟩ :=
    step_cases_unplaced unplaced h
  · exact inv_iff.2 ⟨⟨rfl, table, offers⟩, latchInv_of_ready rfl⟩
  · exact inv
  · rw [offered] at offers
    have wellFormed := offers r List.mem_cons_self
    have others : ∀ r' ∈ rest, (decodeCmd r').wellFormed = true := fun r' mem =>
      offers r' (List.mem_cons_of_mem r mem)
    have accepted : InputsInv { s with offers := rest } := ⟨unplaced, table, others⟩
    exact inv_iff.2 ⟨exec_keeps_inputsInv accepted ran,
      latchInv_of_accepted (s := { s with offers := rest }) wellFormed ready ran⟩
  · exact inv_iff.2
      ⟨exec_keeps_inputsInv ⟨unplaced, table, offers⟩ ran, latchInv_of_phase_operation latch busy decoded ran⟩

end Sys2Proof.Safety
end

section
/-! Proofs about the register block as the bus sees it (20_memory.md R41, R51, R54, R55, R58): addresses, the bytes a port
enqueues, status reads, a bus that is held, and accesses from outside. -/

namespace Sys2Proof.Machine

/-! ### Addresses (R41, R43) -/

@[simp] theorem Params.base_toNat (p : Params) : (Params.base p).toNat = 4 * p.baseIndex.val := by
  have noWrap : 4 * p.baseIndex.val < 2 ^ 32 := by omega
  simpa [Params.base] using noWrap

theorem Reg.offset_aligned (r : Reg) : r.offset.toNat % 4 = 0 ∧ r.offset.toNat ≤ 0x1C := by
  cases r <;> decide

/-- The sum of R41 does not wrap, since `BASE` leaves room for the highest offset. -/
theorem busAddress_toNat (p : Params) (r : Reg) :
    (busAddress p r.offset).toNat = 4 * p.baseIndex.val + r.offset.toNat := by
  have room := p.baseIndex.isLt
  obtain ⟨-, highest⟩ := r.offset_aligned
  rw [busAddress, BitVec.toNat_add, Params.base_toNat, BitVec.toNat_setWidth_of_le (by decide)]
  exact Nat.mod_eq_of_lt (by omega)

/-- Settles O25: `BASE` is four times a number that leaves room for the highest offset. -/
theorem registerAddressesAreAligned : Obligations.RegisterAddressesAreAligned := by
  refine ⟨rfl, rfl, rfl, rfl, rfl, fun p r => ?_⟩
  have room := p.baseIndex.isLt
  obtain ⟨aligned, -⟩ := r.offset_aligned
  rw [busAddress_toNat, Params.base_toNat]
  exact ⟨rfl, by omega, by omega, by omega⟩

/-! ### The bytes a port enqueues (R55) -/

theorem extractByte_eq (v : Word) (n : Nat) : v.extractLsb' (8 * n) 8 = BitVec.ofNat 8 (v.toNat / 256 ^ n) := by
  apply BitVec.eq_of_toNat_eq
  rw [BitVec.extractLsb'_toNat, BitVec.toNat_ofNat, Nat.shiftRight_eq_div_pow, Nat.pow_mul]

theorem fifoBytes_snoc (t : List BusEvent) (e : BusEvent) : fifoBytes (t ++ [e]) = fifoBytes t ++ e.bytes := by
  simp [fifoBytes]

theorem bytes_fifo1 (v : Word) : (⟨.write, Reg.fifo1.offset, v⟩ : BusEvent).bytes = [v.extractLsb' 0 8] := rfl

theorem bytes_fifo2 (v : Word) :
    (⟨.write, Reg.fifo2.offset, v⟩ : BusEvent).bytes = [v.extractLsb' 0 8, v.extractLsb' 8 8] := rfl

theorem bytes_fifo4 (v : Word) :
    (⟨.write, Reg.fifo4.offset, v⟩ : BusEvent).bytes =
      [v.extractLsb' 0 8, v.extractLsb' 8 8, v.extractLsb' 16 8, v.extractLsb' 24 8] := rfl

theorem bytes_read {e : BusEvent} (h : e.dir = .read) : e.bytes = [] := by
  simp [BusEvent.bytes, h]

theorem bytes_of_no_port {e : BusEvent} (h1 : e.offset ≠ Reg.fifo1.offset) (h2 : e.offset ≠ Reg.fifo2.offset)
    (h4 : e.offset ≠ Reg.fifo4.offset) : e.bytes = [] := by
  simp [BusEvent.bytes, h1, h2, h4]

/-- Settles O18: an appended event adds its own bytes, and byte `n` of a word is what is left of it over `256 ^ n`. -/
theorem portsEnqueueLowByteFirst : Obligations.PortsEnqueueLowByteFirst := by
  intro v tr byte
  have byte_eq : ∀ n, byte n = v.extractLsb' (8 * n) 8 := fun n => (extractByte_eq v n).symm
  refine ⟨?_, ?_, ?_, rfl, fun e noWrite => ?_⟩
  · rw [fifoBytes_snoc, byte_eq]
    exact congrArg _ (bytes_fifo1 v)
  · rw [fifoBytes_snoc, byte_eq, byte_eq]
    exact congrArg _ (bytes_fifo2 v)
  · rw [fifoBytes_snoc, byte_eq, byte_eq, byte_eq, byte_eq]
    exact congrArg _ (bytes_fifo4 v)
  · have silent : e.bytes = [] := by
      obtain read | ⟨h1, h2, h4⟩ := noWrite
      · exact bytes_read read
      · exact bytes_of_no_port h1 h2 h4
    rw [fifoBytes_snoc, silent, List.append_nil]

/-! ### Operations that complete -/

/-- The only operations that can stop are those that read the table, and they stop as the read does. -/
theorem exec_completes (i : Instr) (s : State) :
    (∃ t, exec i s = .next t) ∨ ((i = .dataw ∨ i = .remw) ∧ ∃ f, tblRead s s.idx.toNat = .error f) := by
  cases i with
  | isIdle m =>
    by_cases ready : s.phase = .ready
    · exact .inl ⟨_, exec_isIdle_of_ready m ready⟩
    · exact .inl ⟨_, exec_isIdle_of_busy m ready⟩
  | programChain c l n tbl =>
    by_cases ready : s.phase = .ready
    · exact .inl ⟨_, exec_programChain_of_ready c l n tbl ready⟩
    · exact .inl ⟨_, exec_programChain_of_busy c l n tbl ready⟩
  | validate => left; simp only [exec, execValidate]; split_ifs <;> exact ⟨_, rfl⟩
  | chunk => left; simp only [exec, execChunk]; split_ifs <;> exact ⟨_, rfl⟩
  | check => left; simp only [exec, execCheck]; split_ifs <;> exact ⟨_, rfl⟩
  | poll => left; simp only [exec, execPoll]; split_ifs <;> exact ⟨_, rfl⟩
  | dataw =>
    cases read : tblRead s s.idx.toNat with
    | error f => exact .inr ⟨.inl rfl, f, rfl⟩
    | ok w => left; rw [exec_dataw, execDataw, read]; exact ⟨_, rfl⟩
  | remw =>
    cases read : tblRead s s.idx.toNat with
    | error f => exact .inr ⟨.inr rfl, f, rfl⟩
    | ok w => left; rw [exec_remw, execRemw, read]; exact ⟨_, rfl⟩
  | select | plan | hdr | rdStat | wrEn _ | wrFifo1 _ | wrFifo2 _ | wrFifo4 _ | tdiTdoHdr _ => exact .inl ⟨_, rfl⟩

/-! ### Status reads (R51) -/

@[simp] theorem endOfCheck_trace (s : State) (p : PollState) : (s.endOfCheck p).trace = s.trace := by
  obtain ⟨r, ph, writes⟩ := endOfCheck_writes s p
  rw [writes]

@[simp] theorem endOfCheck_answers (s : State) (p : PollState) : (s.endOfCheck p).answers = s.answers := by
  obtain ⟨r, ph, writes⟩ := endOfCheck_writes s p
  rw [writes]

/-- R113: whatever `POLL` decides, it has made one status read. -/
theorem exec_poll_reads {s t : State} (h : exec .poll s = .next t) :
    t.trace = s.trace ++ [⟨.read, Reg.stat.offset, s.statusAnswer⟩] ∧ t.answers = s.answers.tail := by
  obtain ⟨-, rfl⟩ | ⟨-, -, rfl⟩ | ⟨-, -, rfl⟩ := execPoll_cases h <;> simp

theorem statusAnswer_of_cons {s : State} {v : Word} {rest : List Word} (h : s.answers = v :: rest) :
    s.statusAnswer = v := by
  rw [State.statusAnswer, h, nextAnswer_cons]

/-- Settles O15: `POLL` completes, and it has read the answer that stood first. -/
theorem statusReadTakesTheNextAnswer : Obligations.StatusReadTakesTheNextAnswer := by
  intro s v rest answers
  have answer := statusAnswer_of_cons answers
  obtain ⟨t, ran⟩ : ∃ t, exec .poll s = .next t := (exec_completes .poll s).resolve_right (by simp)
  obtain ⟨trace, left⟩ := exec_poll_reads ran
  rw [answer] at trace
  rw [answers] at left
  exact ⟨answer, t, ran, trace, left⟩

/-! ### A step whose operation is known -/

/-- A step that has an operation of the block's own to run is stuck at a held bus, or runs it. -/
theorem step_of_fetched {s : State} {e : Encoded} {i : Instr} (noReset : s.resetRequest = false)
    (owned : s.breaksOwnership = false) (fetched : s.fetch = some e) (decoded : decode e = .ok i) :
    step s = if s.stuckAt i then .next s else exec i s.consume := by
  simp [step, noReset, owned, fetched, decoded]

theorem stuckAt_of_no_access {s : State} {i : Instr} (noAccess : issuesBus i = false) : s.stuckAt i = false := by
  rw [State.stuckAt, noAccess, Bool.and_false]

/-- A step of a busy block into which nothing is placed. -/
theorem step_of_busy {s : State} {i : Instr} (noReset : s.resetRequest = false) (unplaced : s.placed = none)
    (busy : s.phase ≠ .ready) (decoded : decode (.seq s.phase.code) = .ok i) :
    step s = if s.stuckAt i then .next s else exec i s := by
  rw [step_of_fetched noReset (breaksOwnership_of_none unplaced) (fetch_busy unplaced busy) decoded,
    consume_busy unplaced busy]

theorem step_of_busy_no_access {s : State} {i : Instr} (noReset : s.resetRequest = false) (unplaced : s.placed = none)
    (busy : s.phase ≠ .ready) (decoded : decode (.seq s.phase.code) = .ok i) (noAccess : issuesBus i = false) :
    step s = exec i s := by
  rw [step_of_busy noReset unplaced busy decoded, stuckAt_of_no_access noAccess]
  rfl

/-- Each value of `PHASE` but `READY` selects an operation, and only `DATA` and `REMW` select one that reads the
table. -/
theorem decode_busy_phase {p : Phase} (busy : p ≠ .ready) :
    ∃ i, decode (.seq p.code) = .ok i ∧ (i = .dataw ∨ i = .remw → p = .data ∨ p = .remw) := by
  cases p with
  | ready => exact absurd rfl busy
  | validate => exact ⟨_, decode_validate, by simp⟩
  | select => exact ⟨_, decode_select, by simp⟩
  | plan => exact ⟨_, decode_plan, by simp⟩
  | nextChunk => exact ⟨_, decode_nextChunk, by simp⟩
  | monStart => exact ⟨_, decode_monStart, by simp⟩
  | monRead => exact ⟨_, decode_monRead, by simp⟩
  | hdr => exact ⟨_, decode_hdr, by simp⟩
  | data => exact ⟨_, decode_data, by simp⟩
  | remw => exact ⟨_, decode_remw, by simp⟩

/-- A command the host offers is accepted in the step that fetches it. -/
theorem step_of_offer {s : State} {r : CmdRecord} {rest : List CmdRecord} (noReset : s.resetRequest = false)
    (unplaced : s.placed = none) (ready : s.phase = .ready) (offers : s.offers = r :: rest) :
    step s = exec (decodeCmd r) { s with offers := rest } := by
  have noAccess : issuesBus (decodeCmd r) = false := by
    unfold decodeCmd
    split <;> rfl
  rw [step_of_fetched noReset (breaksOwnership_of_none unplaced) (fetch_ready_offer unplaced ready offers) rfl,
    consume_ready unplaced ready, stuckAt_of_no_access noAccess, offers]
  rfl

theorem exec_decodeCmd_completes (r : CmdRecord) (s : State) : ∃ t, exec (decodeCmd r) s = .next t := by
  refine (exec_completes (decodeCmd r) s).resolve_right fun ⟨isRead, _⟩ => ?_
  unfold decodeCmd at isRead
  split at isRead <;> simp at isRead

/-- Settles O60: the placed operation is fetched and breaks the block's ownership (R54). -/
theorem outsideAccessDuringACommandIsRefused : Obligations.OutsideAccessDuringACommandIsRefused := by
  intro s e i noReset placed busy decoded
  have broken : s.breaksOwnership = true := breaksOwnership_eq_true.2 ⟨⟨e, placed⟩, busy⟩
  simp [step, noReset, fetch_placed placed, decoded, broken]

/-! ### A held bus (R58) -/

theorem endOfCheck_busHeld (s : State) (p : PollState) (b : Bool) :
    ({ s with busHeld := b } : State).endOfCheck p = { s.endOfCheck p with busHeld := b } := by
  unfold State.endOfCheck
  dsimp only
  split_ifs <;> rfl

/-- An operation that makes no bus access does not see whether the bus is held. -/
theorem exec_busHeld_of_no_access {i : Instr} {s t : State} (b : Bool) (noAccess : issuesBus i = false)
    (h : exec i s = .next t) : exec i { s with busHeld := b } = .next { t with busHeld := b } := by
  cases i with
  | isIdle m => simp only [exec, execIsIdle] at h ⊢; split_ifs at h ⊢ <;> cases h <;> rfl
  | programChain c l n tbl => simp only [exec, execProgramChain] at h ⊢; split_ifs at h ⊢ <;> cases h <;> rfl
  | validate => simp only [exec, execValidate] at h ⊢; split_ifs at h ⊢ <;> cases h <;> rfl
  | plan => cases h; rfl
  | chunk => simp only [exec, execChunk] at h ⊢; split_ifs at h ⊢ <;> cases h <;> rfl
  | check =>
    simp only [exec, execCheck] at h ⊢
    split_ifs at h ⊢ <;> cases h
    · rw [endOfCheck_busHeld]
    · rfl
  | select | poll | hdr | dataw | remw | rdStat | wrEn _ | wrFifo1 _ | wrFifo2 _ | wrFifo4 _ | tdiTdoHdr _ =>
    cases noAccess

section HeldBus

variable {s : State} {i : Instr}

/-- At a bus access a held bus leaves the block as it is. -/
theorem step_held_of_access (noReset : s.resetRequest = false) (unplaced : s.placed = none) (held : s.busHeld = true)
    (busy : s.phase ≠ .ready) (decoded : decode (.seq s.phase.code) = .ok i) (access : issuesBus i = true) :
    step s = .next s := by
  rw [step_of_busy noReset unplaced busy decoded, State.stuckAt, held, access]
  rfl

/-- Without a bus access the step is the one a free bus gives. -/
theorem step_held_of_no_access {t : State} (noReset : s.resetRequest = false) (unplaced : s.placed = none)
    (held : s.busHeld = true) (busy : s.phase ≠ .ready) (decoded : decode (.seq s.phase.code) = .ok i)
    (noAccess : issuesBus i = false) (free : step { s with busHeld := false } = .next t) :
    step s = .next { t with busHeld := true } := by
  rw [step_of_busy_no_access (s := { s with busHeld := false }) noReset unplaced busy decoded noAccess] at free
  have ran : exec i { s with busHeld := true } = .next { t with busHeld := true } :=
    exec_busHeld_of_no_access (s := { s with busHeld := false }) true noAccess free
  have same : ({ s with busHeld := true } : State) = s := by rw [← held]
  rw [step_of_busy_no_access noReset unplaced busy decoded noAccess, ← ran, same]

end HeldBus

/-- Settles O32: the five phases are those whose operation makes a bus access. -/
theorem heldBusLeavesTheBlockStuck : Obligations.HeldBusLeavesTheBlockStuck := by
  intro s noReset unplaced held
  have stuck {p : Phase} {i : Instr} (phase : s.phase = p) (busy : p ≠ .ready) (decoded : decode (.seq p.code) = .ok i)
      (access : issuesBus i = true) : step s = .next s := by
    subst phase
    exact step_held_of_access noReset unplaced held busy decoded access
  have goesOn {t : State} {p : Phase} {i : Instr} (free : step { s with busHeld := false } = .next t)
      (phase : s.phase = p) (busy : p ≠ .ready) (decoded : decode (.seq p.code) = .ok i)
      (noAccess : issuesBus i = false) : step s = .next { t with busHeld := true } := by
    subst phase
    exact step_held_of_no_access noReset unplaced held busy decoded noAccess free
  refine ⟨?_, fun t phases free => ?_⟩
  · rintro (h | h | h | h | h)
    · exact stuck h (by decide) decode_select rfl
    · exact stuck h (by decide) decode_monRead rfl
    · exact stuck h (by decide) decode_hdr rfl
    · exact stuck h (by decide) decode_data rfl
    · exact stuck h (by decide) decode_remw rfl
  · obtain h | h | h | h := phases
    · exact goesOn free h (by decide) decode_validate rfl
    · exact goesOn free h (by decide) decode_plan rfl
    · exact goesOn free h (by decide) decode_nextChunk rfl
    · exact goesOn free h (by decide) decode_monStart rfl

end Sys2Proof.Machine
end

section
/-! Proofs that the block always goes on from a state that meets the invariant (20_memory.md R51, R58, 60_exceptions.md
R200): the only stops are table reads, and the account of bits and words keeps those inside the table. -/

namespace Sys2Proof.Safety

open Sys2Proof.Machine

/-- R148: while bits of the length are left from word `IDX` on, the host has supplied that word. -/
theorem tblRead_of_programming {s : State} (prog : Programming s) (left : 32 * s.idx.toNat < s.len.toNat) :
    ∃ w, tblRead s s.idx.toNat = .ok w := by
  obtain ⟨-, supplied, -, tableFits, -⟩ := prog
  rw [ceil32_toNat] at tableFits
  have inside : s.idx.toNat < s.tableLen.toNat := by omega
  obtain ⟨w, word⟩ := Option.isSome_iff_exists.1 (supplied _ inside)
  exact ⟨w, tblRead_ok.2 ⟨inside, word⟩⟩

/-- In `DATA` and `REMW` the invariant leaves at least one bit from word `IDX` on. -/
theorem tblRead_of_phaseInv {s : State} (latches : PhaseInv s) (phase : s.phase = .data ∨ s.phase = .remw) :
    ∃ w, tblRead s s.idx.toNat = .ok w := by
  obtain data | remw := phase
  · obtain ⟨prog, pos, -, account, -⟩ := (phaseInv_data data).1 latches
    exact tblRead_of_programming prog (by omega)
  · obtain ⟨prog, -, someRem, -, account⟩ := (phaseInv_remw remw).1 latches
    have pos := one_le_toNat someRem
    exact tblRead_of_programming prog (by omega)

/-- The operation that `PHASE` selects completes. -/
theorem exec_busy_phase_completes {s : State} (latches : PhaseInv s) (busy : s.phase ≠ .ready) :
    ∃ i t, decode (.seq s.phase.code) = .ok i ∧ exec i s = .next t := by
  obtain ⟨i, decoded, reads⟩ := decode_busy_phase busy
  obtain ⟨t, ran⟩ | ⟨isRead, f, stops⟩ := exec_completes i s
  · exact ⟨i, t, decoded, ran⟩
  · obtain ⟨w, word⟩ := tblRead_of_phaseInv latches (reads isRead)
    rw [stops] at word
    cases word

/-- Settles O45: a reset, a wait, an accepted command, a held bus and the operation that `PHASE` selects all leave a next
state. -/
theorem invariantStateHasANextStep : Obligations.InvariantStateHasANextStep := by
  intro s inv
  by_cases reset : s.resetRequest = true
  · exact ⟨s.blockReset, by simp [step, reset]⟩
  have noReset : s.resetRequest = false := by simpa using reset
  by_cases ready : s.phase = .ready
  · cases offers : s.offers with
    | nil => exact ⟨s, by simp [step, noReset, fetch_ready_none inv.nothingPlaced ready offers]⟩
    | cons r rest =>
      rw [step_of_offer noReset inv.nothingPlaced ready offers]
      exact exec_decodeCmd_completes r _
  · obtain ⟨i, t, decoded, ran⟩ := exec_busy_phase_completes inv.latches ready
    rw [step_of_busy noReset inv.nothingPlaced ready decoded]
    split
    · exact ⟨s, rfl⟩
    · exact ⟨t, ran⟩

end Sys2Proof.Safety
end

section
/-! Facts about what a reader makes of a trace (20_memory.md R45, R55, R56): the bits of a written word, and packets read
off event by event, so that a proof can follow a trace as the block extends it. -/

namespace Sys2Proof.Machine

/-! ### The bits of bytes, words and tables -/

@[simp] theorem byteBits_length (b : Byte) : (byteBits b).length = 8 := by simp [byteBits]

theorem length_flatMap_byteBits (bs : List Byte) : (bs.flatMap byteBits).length = 8 * bs.length := by
  induction bs with
  | nil => rfl
  | cons b bs ih => rw [List.flatMap_cons, List.length_append, ih, byteBits_length, List.length_cons]; omega

theorem byteBits_extractLsb' (v : Word) (a : Nat) : byteBits (v.extractLsb' a 8) = (List.range' a 8).map v.getLsbD := by
  rw [byteBits, List.range'_eq_map_range, List.map_map]
  refine List.map_congr_left fun k hk => ?_
  have inByte : k < 8 := by simpa using hk
  simp [inByte]

/-- How many bits a write of a register makes the engine's queue receive (R55). -/
def Reg.portWidth : Reg → Nat
  | .stat => 0
  | .en => 0
  | .fifo1 => 8
  | .fifo2 => 16
  | .fifo4 => 32

/-- R55, R56: a port enqueues the low bits of what is written, as many as it is wide, bit 0 first. -/
theorem flatMap_byteBits_bytes (port : Reg) (v : Word) :
    (⟨.write, port.offset, v⟩ : BusEvent).bytes.flatMap byteBits = (List.range port.portWidth).map v.getLsbD := by
  cases port with
  | stat => rfl
  | en => rfl
  | fifo1 | fifo2 | fifo4 =>
    simp only [bytes_fifo1, bytes_fifo2, bytes_fifo4, List.flatMap_cons, List.flatMap_nil, byteBits_extractLsb']
    rfl

theorem tableBits_zero (tbl : Nat → Word) : tableBits tbl 0 = [] := rfl

/-- R45: bits `32 i` and following of a table are those of word `i`. -/
theorem tableBits_add (tbl : Nat → Word) (i : Nat) {m : Nat} (h : m ≤ 32) :
    tableBits tbl (32 * i + m) = tableBits tbl (32 * i) ++ (List.range m).map (tbl i).getLsbD := by
  simp only [tableBits, List.range_add, List.map_append, List.map_map]
  refine congrArg _ (List.map_congr_left fun k hk => ?_)
  have inWord : k < 32 := (List.mem_range.1 hk).trans_le h
  have word : (32 * i + k) / 32 = i := by omega
  have bit : (32 * i + k) % 32 = k := by omega
  rw [Function.comp_apply, word, bit]

/-! ### The remainder and the header -/

theorem lowOnes_getLsbD (r : BitVec 5) {k : Nat} (h : k < r.toNat) : (lowOnes r).getLsbD k = true := by
  have fits : 2 ^ r.toNat < 2 ^ 32 := Nat.pow_lt_pow_right (by decide) r.isLt
  have ones : (lowOnes r).toNat = 2 ^ r.toNat - 1 := by
    have one : (1#32 <<< r.toNat).toNat = 2 ^ r.toNat := by
      rw [BitVec.toNat_shiftLeft, Nat.shiftLeft_eq, BitVec.toNat_one (by decide), Nat.one_mul,
        Nat.mod_eq_of_lt fits]
    rw [lowOnes, pred_toNat (by rw [one]; exact Nat.one_le_two_pow), one]
  rw [← BitVec.testBit_toNat, ones, Nat.testBit_two_pow_sub_one]
  exact decide_eq_true h

/-- R84: whatever the policy, the low `r` bits of a remainder are the table word's. -/
theorem remainderData_getLsbD (policy : PadPolicy) {r : BitVec 5} (w pad : Word) {k : Nat} (h : k < r.toNat) :
    (remainderData policy r w pad).getLsbD k = w.getLsbD k := by
  have one := lowOnes_getLsbD r h
  cases policy with
  | draw => simp [remainderData, one]
  | zero => simp [remainderData, one]
  | passthrough => rfl

/-- R86: the port of a remainder is wide enough for it. -/
theorem le_portWidth_remainderPort (r : BitVec 5) : r.toNat ≤ (remainderPort r).portWidth := by
  unfold remainderPort
  split_ifs with one two
  · exact BitVec.le_def.1 one
  · exact BitVec.le_def.1 two
  · exact r.isLt.le

/-- R75, R81: a reader of a header gets the length it was made for. -/
theorem header_length {n : BitVec 8} (pos : 1 ≤ n.toNat) (le : n.toNat ≤ 128) :
    (((header n).setWidth 32).extractLsb' 8 7).toNat + 1 = n.toNat := by
  have inRange : 1#8 ≤ n ∧ n ≤ 128#8 := ⟨BitVec.le_def.2 pos, BitVec.le_def.2 le⟩
  have field : ((header n).setWidth 32).extractLsb' 8 7 = (n.setWidth 16 - 1#16).extractLsb' 0 7 := by
    rw [header, if_pos inRange]
    apply BitVec.eq_of_getLsbD_eq
    intro k hk
    simp only [BitVec.getLsbD_extractLsb', BitVec.getLsbD_setWidth, BitVec.getLsbD_or, BitVec.getLsbD_shiftLeft]
    have marker : (0x0080#16).getLsbD (8 + k) = false := by
      interval_cases k <;> rfl
    grind
  have wide : (n.setWidth 16).toNat = n.toNat := BitVec.toNat_setWidth_of_le (by decide)
  rw [field, BitVec.extractLsb'_toNat, pred_toNat (by rw [wide]; exact pos), wide]
  omega

/-! ### Packets, read off event by event -/

/-- What a reader of a trace has so far: the packets that are complete, whether a header is awaited, and the packet being
filled. -/
structure PacketScan where
  closed : List Packet
  fresh : Bool
  cur : Option Packet

/-- The reader meets one more event: the body of `packetsFrom`. -/
def PacketScan.next (p : PacketScan) (e : BusEvent) : PacketScan :=
  if e.isRead then { p with fresh := true }
  else if p.fresh && e.isWriteTo .fifo2 then
    ⟨p.closed ++ p.cur.toList, false, some ⟨(e.value.extractLsb' 8 7).toNat + 1, []⟩⟩
  else { p with cur := p.cur.map fun q => { q with payload := q.payload ++ e.bytes } }

/-- The packets read so far, the one being filled among them. -/
def PacketScan.packets (p : PacketScan) : List Packet := p.closed ++ p.cur.toList

/-- The reader after a whole trace. -/
def scan (t : List BusEvent) : PacketScan := t.foldl PacketScan.next ⟨[], false, none⟩

theorem packets_foldl_next (t : List BusEvent) :
    ∀ p : PacketScan, (t.foldl PacketScan.next p).packets = p.closed ++ packetsFrom p.fresh p.cur t := by
  induction t with
  | nil => intro p; rfl
  | cons e t ih =>
    intro p
    rw [List.foldl_cons, ih, PacketScan.next, packetsFrom]
    split_ifs <;> simp

/-- Reading event by event gives the packets of the trace. -/
theorem packets_eq_scan (t : List BusEvent) : packets t = (scan t).packets :=
  (packets_foldl_next t ⟨[], false, none⟩).symm

theorem scan_snoc (t : List BusEvent) (e : BusEvent) : scan (t ++ [e]) = (scan t).next e := by
  simp [scan]

theorem chainBits_eq_scan (t : List BusEvent) :
    chainBits t = (scan t).closed.flatMap Packet.chainBits ++ (scan t).cur.toList.flatMap Packet.chainBits := by
  rw [chainBits, packets_eq_scan, PacketScan.packets, List.flatMap_append]

/-- R104: after a status read a header is awaited. -/
theorem PacketScan.next_read (p : PacketScan) (offset : BitVec 8) (v : Word) :
    p.next ⟨.read, offset, v⟩ = { p with fresh := true } := rfl

/-- R104, R56: the awaited write of `FIFO2` opens a packet. -/
theorem PacketScan.next_header {p : PacketScan} (fresh : p.fresh = true) (v : Word) :
    p.next ⟨.write, Reg.fifo2.offset, v⟩ =
      ⟨p.closed ++ p.cur.toList, false, some ⟨(v.extractLsb' 8 7).toNat + 1, []⟩⟩ := by
  have write : (⟨.write, Reg.fifo2.offset, v⟩ : BusEvent).isRead = false := rfl
  have port : (⟨.write, Reg.fifo2.offset, v⟩ : BusEvent).isWriteTo .fifo2 = true := rfl
  simp [PacketScan.next, write, port, fresh]

/-- R56: where no header is awaited, what is written belongs to the open packet. -/
theorem PacketScan.next_payload (closed : List Packet) (q : Packet) (offset : BitVec 8) (v : Word) :
    (⟨closed, false, some q⟩ : PacketScan).next ⟨.write, offset, v⟩ =
      ⟨closed, false, some { q with payload := q.payload ++ (⟨.write, offset, v⟩ : BusEvent).bytes }⟩ := rfl

theorem scan_fresh_of_read (t : List BusEvent) (offset : BitVec 8) (v : Word) :
    (scan (t ++ [⟨.read, offset, v⟩])).fresh = true := by
  rw [scan_snoc, PacketScan.next_read]

/-- A status read adds no bits. -/
theorem chainBits_read (t : List BusEvent) (offset : BitVec 8) (v : Word) :
    chainBits (t ++ [⟨.read, offset, v⟩]) = chainBits t := by
  rw [chainBits_eq_scan, chainBits_eq_scan, scan_snoc, PacketScan.next_read]

/-! ### A packet that is being filled from a table -/

/-- The trace ends in an open packet of whose bits `left` are still to come; the complete packets and what the open one
has so far are the first `i` words of the table. -/
def PacketOpen (tbl : Nat → Word) (t : List BusEvent) (i left : Nat) : Prop :=
  ∃ closed q, scan t = ⟨closed, false, some q⟩ ∧
    closed.flatMap Packet.chainBits ++ q.payload.flatMap byteBits = tableBits tbl (32 * i) ∧
    q.bits = 8 * q.payload.length + left

section Filling

variable {tbl : Nat → Word} {t : List BusEvent} {i left : Nat}

/-- An awaited header opens a packet of its length. -/
theorem packetOpen_header {n : BitVec 8} (fresh : (scan t).fresh = true) (bits : chainBits t = tableBits tbl (32 * i))
    (pos : 1 ≤ n.toNat) (le : n.toNat ≤ 128) :
    PacketOpen tbl (t ++ [⟨.write, Reg.fifo2.offset, (header n).setWidth 32⟩]) i n.toNat := by
  refine ⟨_, _, (scan_snoc _ _).trans (PacketScan.next_header fresh _), ?_, ?_⟩
  · rw [← bits, chainBits_eq_scan, List.flatMap_append, List.flatMap_nil, List.append_nil]
  · rw [header_length pos le, List.length_nil, Nat.mul_zero, Nat.zero_add]

/-- A whole word goes on with the table. -/
theorem PacketOpen.write_word (opened : PacketOpen tbl t i (32 + left)) :
    PacketOpen tbl (t ++ [⟨.write, Reg.fifo4.offset, tbl i⟩]) (i + 1) left := by
  obtain ⟨closed, q, scanned, sent, bits⟩ := opened
  refine ⟨closed, _, by rw [scan_snoc, scanned, PacketScan.next_payload], ?_, ?_⟩
  · rw [List.flatMap_append, ← List.append_assoc, sent, flatMap_byteBits_bytes]
    exact (tableBits_add tbl i (Nat.le_refl 32)).symm
  · rw [bits, List.length_append, bytes_fifo4]
    simp only [List.length_cons, List.length_nil]
    omega

/-- A packet with no bits to come counts whole. -/
theorem PacketOpen.chainBits_eq (opened : PacketOpen tbl t i 0) : chainBits t = tableBits tbl (32 * i) := by
  obtain ⟨closed, q, scanned, sent, bits⟩ := opened
  have whole : q.chainBits = q.payload.flatMap byteBits := by
    rw [Packet.chainBits, bits, Nat.add_zero, List.take_of_length_le (length_flatMap_byteBits _).le]
  rw [chainBits_eq_scan, scanned, ← sent, Option.toList_some, List.flatMap_singleton, whole]

/-- R84, R86: the remainder ends the packet with the bits of the table that were left, whatever stands above them. -/
theorem PacketOpen.write_remainder {port : Reg} {d : Word} (opened : PacketOpen tbl t i left)
    (fits : left ≤ port.portWidth) (valid : ∀ k < left, d.getLsbD k = (tbl i).getLsbD k) (inWord : left ≤ 32) :
    chainBits (t ++ [⟨.write, port.offset, d⟩]) = tableBits tbl (32 * i + left) := by
  obtain ⟨closed, q, scanned, sent, bits⟩ := opened
  have low : ((List.range port.portWidth).map d.getLsbD).take left = (List.range left).map (tbl i).getLsbD := by
    rw [← List.map_take, List.take_range, Nat.min_eq_left fits]
    exact List.map_congr_left fun k hk => valid k (List.mem_range.1 hk)
  have ended : ({ q with payload := q.payload ++ (⟨.write, port.offset, d⟩ : BusEvent).bytes } : Packet).chainBits =
      q.payload.flatMap byteBits ++ (List.range left).map (tbl i).getLsbD := by
    rw [Packet.chainBits, List.flatMap_append, flatMap_byteBits_bytes, bits, ← length_flatMap_byteBits,
      List.take_length_add_append, low]
  rw [chainBits_eq_scan, scan_snoc, scanned, PacketScan.next_payload, Option.toList_some, List.flatMap_singleton, ended,
    ← List.append_assoc, sent, tableBits_add tbl i inWord]

end Filling

end Sys2Proof.Machine
end

section
/-! Facts about the run of one command: what stays as it is while it runs, and the induction from its acceptance to its end
(70_reset_and_hazards.md R254, R256). -/

namespace Sys2Proof.Safety

open Sys2Proof.Machine

/-- What stays as it is while a command runs: its kind, its length, its table, and the inputs that could disturb it. -/
def runConstants (s : State) : BitVec 1 × Word × Memory × Bool × Option Encoded × Bool :=
  (s.op, s.len, s.table, s.resetRequest, s.placed, s.busHeld)

theorem runConstants_eq_iff {s t : State} :
    runConstants t = runConstants s ↔
      t.op = s.op ∧ t.len = s.len ∧ t.table = s.table ∧ t.resetRequest = s.resetRequest ∧ t.placed = s.placed ∧
        t.busHeld = s.busHeld := by
  simp [runConstants]

theorem runConstants_of_frame {s t u : State} (frame : t = u) (same : runConstants u = runConstants s) :
    runConstants t = runConstants s :=
  frame ▸ same

theorem exec_phase_runConstants {i : Instr} {p : Phase} {s t : State} (decoded : decode (.seq p.code) = .ok i)
    (h : exec i s = .next t) : runConstants t = runConstants s := by
  cases p with
  | ready => cases decoded
  | validate => cases decoded; exact runConstants_of_frame (exec_validate_frame h) rfl
  | select => cases decoded; exact runConstants_of_frame (exec_select_frame h) rfl
  | plan => cases decoded; exact runConstants_of_frame (exec_plan_frame h) rfl
  | nextChunk => cases decoded; exact runConstants_of_frame (exec_chunk_frame h) rfl
  | monStart => cases decoded; exact runConstants_of_frame (exec_check_frame h) rfl
  | monRead => cases decoded; exact runConstants_of_frame (exec_poll_frame h) rfl
  | hdr => cases decoded; exact runConstants_of_frame (exec_hdr_frame h) rfl
  | data => cases decoded; exact runConstants_of_frame (exec_dataw_frame h) rfl
  | remw => cases decoded; exact runConstants_of_frame (exec_remw_frame h) rfl

theorem undisturbed_of_runConstants {s t : State} (own : Undisturbed s) (same : runConstants t = runConstants s) :
    Undisturbed t := by
  obtain ⟨-, -, -, reset, placed, held⟩ := runConstants_eq_iff.1 same
  rwa [Undisturbed, reset, placed, held]

/-- A step of an undisturbed busy block is the operation that `PHASE` selects. -/
theorem exec_of_step_busy {s t : State} (own : Undisturbed s) (busy : s.phase ≠ .ready) (h : step s = .next t) :
    ∃ i, decode (.seq s.phase.code) = .ok i ∧ exec i s = .next t := by
  obtain ⟨noReset, unplaced, free⟩ := own
  obtain ⟨i, decoded, -⟩ := decode_busy_phase busy
  have runs : s.stuckAt i = false := by rw [State.stuckAt, free, Bool.false_and]
  rw [step_of_busy noReset unplaced busy decoded, runs] at h
  exact ⟨i, decoded, h⟩

/-- The last step of a run. -/
theorem leads_succ_last {k : Nat} : ∀ {s t : State}, Leads (k + 1) s t → ∃ u, Leads k s u ∧ step u = .next t := by
  induction k with
  | zero =>
    intro s t h
    obtain ⟨u, first, rest⟩ := leads_succ.1 h
    rw [leads_zero] at rest
    exact ⟨s, leads_zero.2 rfl, rest ▸ first⟩
  | succ k ih =>
    intro s t h
    obtain ⟨a, first, rest⟩ := leads_succ.1 h
    obtain ⟨u, run, last⟩ := ih rest
    exact ⟨u, leads_succ.2 ⟨a, first, run⟩, last⟩

/-- What the accepting step gives and every step of the busy block keeps holds when the command ends. -/
theorem commandEnds_induction {P : State → Prop} {s t : State} (ends : CommandEnds s t)
    (accepted : ∀ u, step s = .next u → P u)
    (kept : ∀ u v, P u → u.phase ≠ .ready → step u = .next v → P v) : P t := by
  obtain ⟨k, pos, leads, -, busy⟩ := ends
  have along : ∀ j u, j < k → Leads (j + 1) s u → P u := by
    intro j
    induction j with
    | zero =>
      intro u _ run
      obtain ⟨v, start, last⟩ := leads_succ_last run
      rw [leads_zero] at start
      exact accepted u (start ▸ last)
    | succ j ih =>
      intro u inside run
      obtain ⟨v, before, last⟩ := leads_succ_last run
      exact kept v u (ih v (by omega) before) (busy (j + 1) v (by omega) inside before) last
  obtain ⟨j, rfl⟩ := Nat.exists_eq_add_of_le' pos
  exact along j t (Nat.lt_succ_self j) leads

end Sys2Proof.Safety
end

section
/-! Proof that a command that ends `OK` has sent the first `LEN` bits of its table (20_memory.md R45, R56). What has been
sent is an invariant of the trace beside that of the latches: one lemma per operation keeps it, and the account of bits
and words turns the latches at the end of a packet into the number of bits sent. -/

namespace Sys2Proof.Safety

open Sys2Proof.Machine

/-! ### What has been sent, phase by phase -/

/-- What a reader of the command's bus operations `ev` has at each phase: nothing before `PLAN`, the bits of the chunks
that are done between packets, and an open packet in `DATA` and `REMW`. -/
def Sent (tbl : Nat → Word) (ev : List BusEvent) (s : State) : Prop :=
  match s.phase with
  | .ready => s.result = .ok → chainBits ev = tableBits tbl s.len.toNat
  | .validate => ev = []
  | .select => ev = []
  | .plan => chainBits ev = []
  | .nextChunk => chainBits ev = tableBits tbl (s.len.toNat - bitsLeft s)
  | .monStart => chainBits ev = tableBits tbl (32 * s.idx.toNat)
  | .monRead => chainBits ev = tableBits tbl (32 * s.idx.toNat)
  | .hdr => (scan ev).fresh = true ∧ chainBits ev = tableBits tbl (32 * s.idx.toNat)
  | .data => PacketOpen tbl ev s.idx.toNat (32 * s.wcnt.toNat + s.rem.toNat)
  | .remw => PacketOpen tbl ev s.idx.toNat s.rem.toNat

section Phases

variable {tbl : Nat → Word} {ev : List BusEvent} {s : State}

theorem sent_ready (h : s.phase = .ready) :
    Sent tbl ev s ↔ (s.result = .ok → chainBits ev = tableBits tbl s.len.toNat) := by
  rw [Sent, h]

theorem sent_validate (h : s.phase = .validate) : Sent tbl ev s ↔ ev = [] := by
  rw [Sent, h]

theorem sent_select (h : s.phase = .select) : Sent tbl ev s ↔ ev = [] := by
  rw [Sent, h]

theorem sent_plan (h : s.phase = .plan) : Sent tbl ev s ↔ chainBits ev = [] := by
  rw [Sent, h]

theorem sent_nextChunk (h : s.phase = .nextChunk) :
    Sent tbl ev s ↔ chainBits ev = tableBits tbl (s.len.toNat - bitsLeft s) := by
  rw [Sent, h]

theorem sent_monStart (h : s.phase = .monStart) :
    Sent tbl ev s ↔ chainBits ev = tableBits tbl (32 * s.idx.toNat) := by
  rw [Sent, h]

theorem sent_monRead (h : s.phase = .monRead) :
    Sent tbl ev s ↔ chainBits ev = tableBits tbl (32 * s.idx.toNat) := by
  rw [Sent, h]

theorem sent_hdr (h : s.phase = .hdr) :
    Sent tbl ev s ↔ (scan ev).fresh = true ∧ chainBits ev = tableBits tbl (32 * s.idx.toNat) := by
  rw [Sent, h]

theorem sent_data (h : s.phase = .data) :
    Sent tbl ev s ↔ PacketOpen tbl ev s.idx.toNat (32 * s.wcnt.toNat + s.rem.toNat) := by
  rw [Sent, h]

theorem sent_remw (h : s.phase = .remw) : Sent tbl ev s ↔ PacketOpen tbl ev s.idx.toNat s.rem.toNat := by
  rw [Sent, h]

/-- A command that ends with an error promises nothing about its bits. -/
theorem sent_of_error (ready : s.phase = .ready) (error : s.result ≠ .ok) : Sent tbl ev s :=
  (sent_ready ready).2 fun ok => absurd ok error

end Phases

/-- The bus operations since the trace `base` are as the phase says. -/
def SentSince (tbl : Nat → Word) (base : List BusEvent) (s : State) : Prop :=
  ∃ ev, s.trace = base ++ ev ∧ Sent tbl ev s

/-! ### The operations, each from its own phase -/

section Operations

variable {tbl : Nat → Word} {base ev : List BusEvent} {s t : State}

theorem sentSince_same (events : s.trace = base ++ ev) (trace : t.trace = s.trace) (sent : Sent tbl ev t) :
    SentSince tbl base t :=
  ⟨ev, trace.trans events, sent⟩

theorem sentSince_snoc {e : BusEvent} (events : s.trace = base ++ ev) (trace : t.trace = s.trace ++ [e])
    (sent : Sent tbl (ev ++ [e]) t) : SentSince tbl base t :=
  ⟨ev ++ [e], by rw [trace, events, List.append_assoc], sent⟩

theorem sentSince_validate (events : s.trace = base ++ ev) (nothing : ev = []) (h : exec .validate s = .next t) :
    SentSince tbl base t := by
  obtain ⟨-, rfl⟩ | ⟨-, -, rfl⟩ := execValidate_cases h
  · exact sentSince_same events rfl (sent_of_error rfl (by simp [ErrorKind.result]))
  · exact sentSince_same events rfl ((sent_select rfl).2 nothing)

/-- The write of `EN` is in no packet. -/
theorem sentSince_select (events : s.trace = base ++ ev) (nothing : ev = []) (h : exec .select s = .next t) :
    SentSince tbl base t := by
  cases h
  subst nothing
  exact sentSince_snoc events rfl ((sent_plan rfl).2 rfl)

/-- `PLAN` leaves the whole length to be sent. -/
theorem sentSince_plan (events : s.trace = base ++ ev) (bits : chainBits ev = []) (h : exec .plan s = .next t) :
    SentSince tbl base t := by
  cases h
  refine sentSince_same events rfl ((sent_nextChunk rfl).2 ?_)
  have all : s.len.toNat - (128 * (fullChunksOf s.len).toNat + (residualOf s.len).toNat) = 0 := by
    rw [fullChunksOf_toNat, residualOf_toNat]
    omega
  exact bits.trans ((congrArg (tableBits tbl) all).trans (tableBits_zero tbl)).symm

/-- `CHUNK` starts at the word up to which the bits are sent, or finds that all are. -/
theorem sentSince_chunk (events : s.trace = base ++ ev) (between : BetweenChunks s)
    (bits : chainBits ev = tableBits tbl (s.len.toNat - bitsLeft s)) (h : exec .chunk s = .next t) :
    SentSince tbl base t := by
  have atWord (left : bitsLeft s ≠ 0) : chainBits ev = tableBits tbl (32 * s.idx.toNat) := by
    obtain ⟨-, account⟩ := account_of_bitsLeft between left
    rw [bits, ← account, Nat.add_sub_cancel]
  obtain ⟨full, rfl⟩ | ⟨-, residual, rfl⟩ | ⟨noFull, noResidual, rfl⟩ := execChunk_cases h
  · have pos : 1 ≤ s.fullLeft.toNat := full
    exact sentSince_same events rfl ((sent_monStart rfl).2 (atWord (by rw [bitsLeft]; omega)))
  · have pos : 1 ≤ s.res.toNat := residual
    exact sentSince_same events rfl ((sent_monStart rfl).2 (atWord (by rw [bitsLeft]; omega)))
  · have noChunks : s.fullLeft.toNat = 0 := Nat.eq_zero_of_not_pos noFull
    have noRest : s.res.toNat = 0 := Nat.eq_zero_of_not_pos noResidual
    rw [bitsLeft, noChunks, noRest, Nat.mul_zero, Nat.sub_zero] at bits
    exact sentSince_same events rfl ((sent_ready rfl).2 fun _ => bits)

/-- A check that times out ends a `PROGRAM_CHAIN` with an error. -/
theorem sent_of_timedOut (op : s.op ≠ 0#1) : Sent tbl ev (s.endOfCheck .timedOut) := by
  rw [endOfCheck_timedOut op]
  exact sent_of_error rfl (by simp)

theorem sentSince_check (events : s.trace = base ++ ev) (op : s.op ≠ 0#1)
    (bits : chainBits ev = tableBits tbl (32 * s.idx.toNat)) (h : exec .check s = .next t) :
    SentSince tbl base t := by
  obtain ⟨-, rfl⟩ | ⟨-, rfl⟩ := execCheck_cases h
  · exact sentSince_same events (endOfCheck_trace s _) (sent_of_timedOut op)
  · exact sentSince_same events rfl ((sent_monRead rfl).2 bits)

/-- A status read adds no bits, and the header is awaited after it. -/
theorem sentSince_poll (events : s.trace = base ++ ev) (op : s.op ≠ 0#1)
    (bits : chainBits ev = tableBits tbl (32 * s.idx.toNat)) (h : exec .poll s = .next t) :
    SentSince tbl base t := by
  obtain ⟨trace, -⟩ := exec_poll_reads h
  refine sentSince_snoc events trace ?_
  have bits' := (chainBits_read ev Reg.stat.offset s.statusAnswer).trans bits
  obtain ⟨-, rfl⟩ | ⟨-, -, rfl⟩ | ⟨-, -, rfl⟩ := execPoll_cases h
  · rw [endOfCheck_idle (s := s.readStat) op]
    exact (sent_hdr rfl).2 ⟨scan_fresh_of_read ev _ _, bits'⟩
  · exact sent_of_timedOut op
  · exact (sent_monRead rfl).2 bits'

/-- `HDR` opens a packet for the words and the remainder of the chunk (R147). -/
theorem sentSince_hdr (events : s.trace = base ++ ev) (chunk : ChunkStarted s) (fresh : (scan ev).fresh = true)
    (bits : chainBits ev = tableBits tbl (32 * s.idx.toNat)) (h : exec .hdr s = .next t) :
    SentSince tbl base t := by
  obtain ⟨pos, le, -⟩ := chunk
  have opened := packetOpen_header fresh bits pos le
  have parts : s.curL.toNat = 32 * (wordsOf s.curL).toNat + (remainderOf s.curL).toNat := by
    rw [wordsOf_toNat, remainderOf_toNat]
    omega
  rw [parts] at opened
  cases h
  refine sentSince_snoc events rfl ?_
  by_cases words : wordsOf s.curL > 0#3
  · exact (sent_data (if_pos words)).2 opened
  · have noWords : (wordsOf s.curL).toNat = 0 := Nat.eq_zero_of_not_pos words
    rw [noWords, Nat.mul_zero, Nat.zero_add] at opened
    exact (sent_remw (if_neg words)).2 opened

/-- The word an operation reads is the table's. -/
theorem eq_of_tblRead {i : Nat} {w : Word} (table : ∀ i w, tableWord s.table i = some w → tbl i = w)
    (read : tblRead s i = .ok w) : w = tbl i :=
  (table i w (tblRead_ok.1 read).2).symm

/-- `DATAW` sends the word that is next; after the last one of a chunk without a remainder the packet is whole. -/
theorem sentSince_dataw (events : s.trace = base ++ ev) (table : ∀ i w, tableWord s.table i = some w → tbl i = w)
    (sending : SendingWords s) (opened : PacketOpen tbl ev s.idx.toNat (32 * s.wcnt.toNat + s.rem.toNat))
    (h : exec .dataw s = .next t) : SentSince tbl base t := by
  obtain ⟨pos, -, account, -⟩ := sending
  obtain ⟨w, read, rfl⟩ := execDataw_cases h
  obtain rfl := eq_of_tblRead table read
  have idx : (s.idx + 1#32).toNat = s.idx.toNat + 1 := idx_succ_toNat (by omega)
  have wcnt : (decWcnt s.wcnt).toNat = s.wcnt.toNat - 1 := decWcnt_toNat pos
  have parts : 32 * s.wcnt.toNat + s.rem.toNat = 32 + (32 * (decWcnt s.wcnt).toNat + s.rem.toNat) := by omega
  rw [parts] at opened
  have sent := opened.write_word
  rw [← idx] at sent
  refine sentSince_snoc events rfl ?_
  by_cases words : decWcnt s.wcnt > 0#3
  · exact (sent_data (if_pos words)).2 sent
  have noWords : (decWcnt s.wcnt).toNat = 0 := Nat.eq_zero_of_not_pos words
  rw [noWords, Nat.mul_zero, Nat.zero_add] at sent
  by_cases remainder : s.rem > 0#5
  · exact (sent_remw ((if_neg words).trans (if_pos remainder))).2 sent
  · have noRem : s.rem.toNat = 0 := Nat.eq_zero_of_not_pos remainder
    rw [noRem] at sent
    have done : 32 * (s.idx + 1#32).toNat = s.len.toNat - bitsLeft s := by omega
    exact (sent_nextChunk ((if_neg words).trans (if_neg remainder))).2 (sent.chainBits_eq.trans (congrArg _ done))

/-- `REMW` ends the packet with the bits that were left, whatever the pad bits (R84). -/
theorem sentSince_remw (events : s.trace = base ++ ev) (table : ∀ i w, tableWord s.table i = some w → tbl i = w)
    (remainder : RemainderLeft s) (opened : PacketOpen tbl ev s.idx.toNat s.rem.toNat)
    (h : exec .remw s = .next t) : SentSince tbl base t := by
  obtain ⟨-, -, noBits, account⟩ := remainder
  obtain ⟨w, read, rfl⟩ := execRemw_cases h
  obtain rfl := eq_of_tblRead table read
  have sent := opened.write_remainder (le_portWidth_remainderPort s.rem)
    (fun k valid => remainderData_getLsbD s.params.padPolicy (tbl s.idx.toNat) (Config.padDraw s.draws) valid)
    s.rem.isLt.le
  have done : 32 * s.idx.toNat + s.rem.toNat = s.len.toNat - bitsLeft s := by omega
  exact sentSince_snoc events rfl ((sent_nextChunk rfl).2 (sent.trans (congrArg _ done)))

/-- The operation that `PHASE` selects keeps what a reader of the trace has. -/
theorem sentSince_of_phase_operation {i : Instr} (op : s.op ≠ 0#1)
    (table : ∀ i w, tableWord s.table i = some w → tbl i = w) (latches : PhaseInv s) (sent : SentSince tbl base s)
    (decoded : decode (.seq s.phase.code) = .ok i) (h : exec i s = .next t) : SentSince tbl base t := by
  obtain ⟨ev, events, sent⟩ := sent
  cases phase : s.phase <;> rw [phase] at decoded <;> cases decoded
  case validate => exact sentSince_validate events ((sent_validate phase).1 sent) h
  case select => exact sentSince_select events ((sent_select phase).1 sent) h
  case plan => exact sentSince_plan events ((sent_plan phase).1 sent) h
  case nextChunk =>
    obtain ⟨-, between⟩ := (phaseInv_nextChunk phase).1 latches
    exact sentSince_chunk events between ((sent_nextChunk phase).1 sent) h
  case monStart => exact sentSince_check events op ((sent_monStart phase).1 sent) h
  case monRead => exact sentSince_poll events op ((sent_monRead phase).1 sent) h
  case hdr =>
    obtain ⟨-, -, chunk⟩ := (phaseInv_hdr phase).1 latches
    obtain ⟨fresh, bits⟩ := (sent_hdr phase).1 sent
    exact sentSince_hdr events chunk fresh bits h
  case data =>
    obtain ⟨-, sending⟩ := (phaseInv_data phase).1 latches
    exact sentSince_dataw events table sending ((sent_data phase).1 sent) h
  case remw =>
    obtain ⟨-, remainder⟩ := (phaseInv_remw phase).1 latches
    exact sentSince_remw events table remainder ((sent_remw phase).1 sent) h

end Operations

/-! ### A whole command -/

/-- What holds from the acceptance of the `PROGRAM_CHAIN` `r` to its end; `base` is the trace at the acceptance. -/
structure RunOf (tbl : Nat → Word) (r : CmdRecord) (base : List BusEvent) (s : State) : Prop where
  undisturbed : Undisturbed s
  op : s.op = 1#1
  len : s.len = r.lengthInBits
  table : ∀ i w, tableWord s.table i = some w → tbl i = w
  latch : LatchInv s
  sent : SentSince tbl base s

theorem runOf_of_accepted {tbl : Nat → Word} {r : CmdRecord} {s t : State} (offered : Offered r s) (op : r.op = 1#1)
    (wellFormed : (decodeCmd r).wellFormed = true) (table : ∀ i w, r.table[i]? = some w → tbl i = w)
    (h : step s = .next t) : RunOf tbl r s.trace t := by
  obtain ⟨own, ready, rest, offers⟩ := offered
  obtain ⟨noReset, unplaced, free⟩ := own
  rw [step_of_offer noReset unplaced ready offers] at h
  have latch : LatchInv t := latchInv_of_accepted (s := { s with offers := rest }) wellFormed ready h
  have notIsIdle : r.op ≠ 0#1 := by rw [op]; decide
  rw [decodeCmd, if_neg notIsIdle, exec_programChain_of_ready (s := { s with offers := rest }) _ _ _ _ ready] at h
  cases h
  exact
    { undisturbed := ⟨noReset, unplaced, free⟩
      op := rfl
      len := rfl
      table := fun i w word => table i w ((tableWord_ofWords r.table i).symm.trans word)
      latch := latch
      sent := ⟨[], (List.append_nil _).symm, (sent_validate rfl).2 rfl⟩ }

theorem runOf_of_step {tbl : Nat → Word} {r : CmdRecord} {base : List BusEvent} {s t : State}
    (run : RunOf tbl r base s) (busy : s.phase ≠ .ready) (h : step s = .next t) : RunOf tbl r base t := by
  obtain ⟨i, decoded, ran⟩ := exec_of_step_busy run.undisturbed busy h
  have same := exec_phase_runConstants decoded ran
  obtain ⟨sameOp, sameLen, sameTable, -⟩ := runConstants_eq_iff.1 same
  have notIsIdle : s.op ≠ 0#1 := by rw [run.op]; decide
  obtain ⟨-, latches⟩ := run.latch
  exact
    { undisturbed := undisturbed_of_runConstants run.undisturbed same
      op := sameOp.trans run.op
      len := sameLen.trans run.len
      table := sameTable ▸ run.table
      latch := latchInv_of_phase_operation run.latch busy decoded ran
      sent := sentSince_of_phase_operation notIsIdle run.table latches run.sent decoded ran }

/-- Settles O53: the run keeps what has been sent, and at an end with `OK` all of the length has been. -/
theorem okCommandSendsExactlyTheTable : Obligations.OkCommandSendsExactlyTheTable := by
  intro s t r tbl offered op wellFormed table ends ok
  have run : RunOf tbl r s.trace t := commandEnds_induction ends
    (fun _ accepted => runOf_of_accepted offered op wellFormed table accepted)
    (fun _ _ run busy next => runOf_of_step run busy next)
  obtain ⟨-, -, -, ready, -⟩ := ends
  obtain ⟨ev, events, sent⟩ := run.sent
  have bits := (sent_ready ready).1 sent ok
  rwa [newEvents, events, List.drop_left, ← run.len]

end Sys2Proof.Safety
end

section
/-! Proofs about the decoder and the encoder (30_encoding.md R74, R75, R78, R79). For each format one lemma says exactly
which keys decode, and to what; decoding and encoding agree, and no other key decodes, because of these. -/

namespace Sys2Proof

/-! ### The header value (R74) -/

/-- The length field stands above the marker, so the two are added. -/
@[simp] theorem headerValue_toNat (l : BitVec 7) : (headerValue l).toNat = 128 + 256 * l.toNat := by
  have marker : 128 < 2 ^ 8 := by decide
  have field : l.toNat <<< 8 % 2 ^ 16 = l.toNat <<< 8 := by
    have bound := l.isLt
    rw [Nat.shiftLeft_eq]
    omega
  have wide : (l.setWidth 16).toNat = l.toNat := BitVec.toNat_setWidth_of_le (by decide)
  rw [headerValue, BitVec.toNat_or, BitVec.toNat_shiftLeft, wide, field, Nat.or_comm]
  change l.toNat <<< 8 ||| 128 = _
  rw [← Nat.shiftLeft_add_eq_or_of_lt marker, Nat.shiftLeft_eq]
  omega

theorem headerValue_matches (l : BitVec 7) : headerValue l &&& 0x80FF#16 = 0x0080#16 := by
  revert l
  decide

theorem headerValue_field (l : BitVec 7) : (headerValue l).extractLsb' 8 7 = l := by
  apply BitVec.eq_of_toNat_eq
  rw [BitVec.extractLsb'_toNat, headerValue_toNat, Nat.shiftRight_eq_div_pow]
  have bound := l.isLt
  omega

/-- The mask keeps the low byte and bit 15, so a value that matches is made of the marker and its own bits 14:8. -/
theorem eq_headerValue_of_matches {v : BitVec 16} (h : v &&& 0x80FF#16 = 0x0080#16) :
    v = headerValue (v.extractLsb' 8 7) := by
  apply BitVec.eq_of_getLsbD_eq
  intro k hk
  have masked := congrArg (fun x : BitVec 16 => x.getLsbD k) h
  simp only [headerValue, BitVec.getLsbD_and, BitVec.getLsbD_or, BitVec.getLsbD_shiftLeft, BitVec.getLsbD_setWidth,
    BitVec.getLsbD_extractLsb'] at masked ⊢
  interval_cases k <;> simp_all

/-- R74: the header values are the values below 2^15 with low byte 0x80. -/
theorem exists_headerValue_iff (v : BitVec 16) :
    (∃ l, v = headerValue l) ↔ v.toNat < 2 ^ 15 ∧ v.toNat % 256 = 128 := by
  constructor
  · rintro ⟨l, rfl⟩
    have bound := l.isLt
    rw [headerValue_toNat]
    omega
  · rintro ⟨clear, marker⟩
    refine ⟨BitVec.ofNat 7 (v.toNat / 256), BitVec.eq_of_toNat_eq ?_⟩
    rw [headerValue_toNat, BitVec.toNat_ofNat]
    omega

/-! ### Which keys decode, and to what (R78, R79) -/

/-- The rows of the sequencer operations: the value of `PHASE` and the operation it selects. -/
def seqRows : List (BitVec 4 × Instr) :=
  [(1#4, .validate), (2#4, .select), (3#4, .plan), (4#4, .chunk), (5#4, .check), (6#4, .poll), (7#4, .hdr),
    (8#4, .dataw), (9#4, .remw)]

/-- The rows of the bus operations: the key `dir ++ offset` and the operation it selects with bus data `d`. -/
def busRows (d : Word) : List (BitVec 9 × Instr) :=
  [(0x000#9, .rdStat), (0x104#9, .wrEn d), (0x110#9, .wrFifo1 d), (0x114#9, .wrFifo2 d), (0x11C#9, .wrFifo4 d)]

theorem decode_seq_iff (k : BitVec 4) (i : Instr) : decode (.seq k) = .ok i ↔ (k, i) ∈ seqRows := by
  change decodeSeq k = .ok i ↔ _
  constructor
  · intro h
    unfold decodeSeq at h
    split_ifs at h <;> cases h <;> simp [seqRows, *]
  · intro row
    have rows : ∀ r ∈ seqRows, decodeSeq r.1 = .ok r.2 := by decide
    exact rows (k, i) row

theorem decode_bus_iff (k : BitVec 9) (d : Word) (i : Instr) :
    decode (.bus k d) = .ok i ↔ (k, i) ∈ busRows d := by
  change decodeBus k d = .ok i ↔ _
  constructor
  · intro h
    unfold decodeBus at h
    split_ifs at h <;> cases h <;> simp [busRows, *]
  · intro row
    have rows : ∀ r ∈ busRows d, decodeBus r.1 d = .ok r.2 := by simp [busRows, decodeBus]
    exact rows (k, i) row

theorem decode_headerValue (l : BitVec 7) : decode (.hdr16 (headerValue l)) = .ok (.tdiTdoHdr l) := by
  rw [decode, decodeHdr16, if_pos (headerValue_matches l), headerValue_field]

theorem decode_hdr16_iff (v : BitVec 16) (i : Instr) :
    decode (.hdr16 v) = .ok i ↔ ∃ l, v = headerValue l ∧ i = .tdiTdoHdr l := by
  constructor
  · intro h
    rw [decode, decodeHdr16] at h
    split_ifs at h with isHeader
    cases h
    exact ⟨_, eq_headerValue_of_matches isHeader, rfl⟩
  · rintro ⟨l, rfl, rfl⟩
    exact decode_headerValue l

/-! ### Decode and encode agree -/

theorem decode_encode (i : Instr) : decode (encode i) = .ok i := by
  cases i with
  | tdiTdoHdr l => exact decode_headerValue l
  | isIdle _ | programChain _ _ _ _ => rfl
  | validate | select | plan | chunk | check | poll | hdr | dataw | remw => rfl
  | rdStat | wrEn _ | wrFifo1 _ | wrFifo2 _ | wrFifo4 _ => rfl

/-- The encoder gives a sequencer operation the key of its row. -/
theorem encode_of_mem_seqRows {k : BitVec 4} {i : Instr} (row : (k, i) ∈ seqRows) : encode i = .seq k := by
  have rows : ∀ r ∈ seqRows, encode r.2 = .seq r.1 := by decide
  exact rows (k, i) row

/-- The encoder gives a bus operation the key of its row, with the data of a write. -/
theorem encode_of_mem_busRows {k : BitVec 9} {d : Word} {i : Instr} (row : (k, i) ∈ busRows d) :
    encode i = .bus k (if i = .rdStat then 0#32 else d) := by
  have rows : ∀ r ∈ busRows d, encode r.2 = .bus r.1 (if r.2 = .rdStat then 0#32 else d) := by
    simp [busRows, encode]
  exact rows (k, i) row

/-- Settles O27: the encoder gives each operation a key that decodes to it, and the rows of each format are those of
the encoder. -/
theorem decodeAndEncodeAgree : Obligations.DecodeAndEncodeAgree := by
  refine ⟨decode_encode, fun k i h => ?_, fun k d i h => ?_, fun v i h => ?_⟩
  · exact encode_of_mem_seqRows ((decode_seq_iff k i).1 h)
  · exact encode_of_mem_busRows ((decode_bus_iff k d i).1 h)
  · obtain ⟨l, rfl, rfl⟩ := (decode_hdr16_iff v i).1 h
    rfl

/-! ### Exactly the keys of the table decode -/

theorem exists_mem_seqRows_iff (k : BitVec 4) : (∃ i, (k, i) ∈ seqRows) ↔ 1 ≤ k.toNat ∧ k.toNat ≤ 9 := by
  calc
    (∃ i, (k, i) ∈ seqRows) ↔ k ∈ seqRows.map Prod.fst := by simp
    _ ↔ 1 ≤ k.toNat ∧ k.toNat ≤ 9 := by revert k; decide

theorem exists_mem_busRows_iff (k : BitVec 9) (d : Word) :
    (∃ i, (k, i) ∈ busRows d) ↔ k.toNat ∈ [0x000, 0x104, 0x110, 0x114, 0x11C] := by
  simp [busRows, exists_or, BitVec.toNat_eq]

/-- Settles O28: the keys that decode are those of the rows. -/
theorem decodeAcceptsExactlyTheTable : Obligations.DecodeAcceptsExactlyTheTable := by
  refine ⟨fun r => ⟨decodeCmd r, rfl⟩, fun k => ?_, fun k d => ?_, fun v => ?_⟩
  · simp only [decode_seq_iff]
    exact exists_mem_seqRows_iff k
  · simp only [decode_bus_iff]
    exact exists_mem_busRows_iff k d
  · rw [← exists_headerValue_iff]
    simp only [decode_hdr16_iff]
    constructor
    · rintro ⟨i, l, isHeader, -⟩
      exact ⟨l, isHeader⟩
    · rintro ⟨l, isHeader⟩
      exact ⟨_, l, isHeader, rfl⟩

/-! ### Words of the opcode table (log 13) -/

/-- A table row's bits that are read as an operation's key decode to the operation. -/
theorem decodeTableWord_of_encode {nbits w : Nat} {i : Instr} (h : encodedOfTableWord nbits w = some (encode i)) :
    decodeTableWord nbits w = some i := by
  simp [decodeTableWord, h, decode_encode]

/-- Settles O29: each of the four words is read as the key of its operation. -/
theorem tableWordsDecode : Obligations.TableWordsDecode :=
  ⟨decodeTableWord_of_encode rfl, decodeTableWord_of_encode rfl, decodeTableWord_of_encode rfl,
    decodeTableWord_of_encode rfl⟩

end Sys2Proof
end

section
/-! Proofs about the operands the operations are built from (30_encoding.md R72, R75, R84, R86;
43_arithmetic_and_sequencing.md R174), inside the ranges the spec states and outside them, and about the operations
that use them there (log 7). -/

namespace Sys2Proof.Machine

/-! ### Enable values (R72) -/

theorem enableValue_of_chain {c : Word} (h : c.toNat ≤ 3) : enableValue c = 1#32 <<< c.toNat :=
  if_pos (BitVec.le_def.2 h)

theorem enableValue_of_chain_above {c : Word} (h : 3 < c.toNat) : enableValue c = Config.enOutside c :=
  if_neg fun le => Nat.not_le.2 h (BitVec.le_def.1 le)

/-- Settles O21: a one at the chain's position. -/
theorem enableValueIsOneHot : Obligations.EnableValueIsOneHot :=
  ⟨enableValue_of_chain (by decide), enableValue_of_chain (by decide), enableValue_of_chain (by decide),
    enableValue_of_chain (by decide)⟩

/-! ### Headers (R74, R75) -/

/-- R75: inside its range the header is the header value with length field `L - 1`. -/
theorem header_eq_headerValue {n : BitVec 8} (pos : 1 ≤ n.toNat) (le : n.toNat ≤ 128) :
    header n = headerValue (BitVec.ofNat 7 (n.toNat - 1)) := by
  have inRange : 1#8 ≤ n ∧ n ≤ 128#8 := ⟨BitVec.le_def.2 pos, BitVec.le_def.2 le⟩
  have wide : (n.setWidth 16).toNat = n.toNat := BitVec.toNat_setWidth_of_le (by decide)
  have field : n.setWidth 16 - 1#16 = (BitVec.ofNat 7 (n.toNat - 1)).setWidth 16 := by
    apply BitVec.eq_of_toNat_eq
    rw [pred_toNat (by rw [wide]; exact pos), wide, BitVec.toNat_setWidth_of_le (by decide), BitVec.toNat_ofNat]
    omega
  rw [header, if_pos inRange, field, headerValue]

theorem header_of_outside {n : BitVec 8} (h : n.toNat = 0 ∨ 128 < n.toNat) : header n = Config.headerOutside n := by
  refine if_neg fun ⟨pos, le⟩ => ?_
  have one : 1 ≤ n.toNat := BitVec.le_def.1 pos
  have upper : n.toNat ≤ 128 := BitVec.le_def.1 le
  omega

/-- Settles O22: all three facts are those of the header value. -/
theorem headerEncodesLengthMinusOne : Obligations.HeaderEncodesLengthMinusOne := by
  intro n pos le
  rw [header_eq_headerValue pos le]
  refine ⟨?_, headerValue_matches _, decode_headerValue _⟩
  rw [headerValue_toNat, BitVec.toNat_ofNat, Nat.mod_eq_of_lt (by omega)]

/-- Settles O19: the value written is the header value, as a word. -/
theorem headerPatternIsWrittenToFifo2 : Obligations.HeaderPatternIsWrittenToFifo2 := by
  intro l s
  have value : (headerValue l).setWidth 32 = BitVec.ofNat 32 (128 + 256 * l.toNat) := by
    rw [← headerValue_toNat, BitVec.ofNat_toNat]
  rw [← value]
  rfl

/-! ### Remainders (R84, R86) -/

/-- Settles O23: the bounds of the ports, as numbers. -/
theorem remainderPortIsTheNarrowest : Obligations.RemainderPortIsTheNarrowest := by
  intro r _
  simp [remainderPort, BitVec.le_def]

theorem lowOnes_lt (r : BitVec 5) : (lowOnes r).toNat < 2 ^ r.toNat := by
  revert r
  decide

theorem lowOnes_getLsbD_above {r : BitVec 5} {k : Nat} (h : r.toNat ≤ k) : (lowOnes r).getLsbD k = false := by
  rw [← BitVec.testBit_toNat]
  exact Nat.testBit_lt_two_pow ((lowOnes_lt r).trans_le (Nat.pow_le_pow_right (by decide) h))

/-- R84: under `draw` the pad bits are the drawn ones. -/
theorem remainderData_draw_getLsbD_above {r : BitVec 5} (w pad : Word) {k : Nat} (h : r.toNat ≤ k) :
    (remainderData .draw r w pad).getLsbD k = pad.getLsbD k := by
  simp only [remainderData, BitVec.getLsbD_or, BitVec.getLsbD_and, BitVec.getLsbD_not, lowOnes_getLsbD_above h]
  by_cases inWord : k < 32
  · simp [inWord]
  · simp [inWord, BitVec.getLsbD_of_ge pad k (Nat.not_lt.1 inWord)]

/-- Two data words that agree with the table word below the remainder and with one draw above it are the same. -/
theorem eq_remainderData_draw {r : BitVec 5} {w pad d : Word} (valid : ∀ k < r.toNat, d.getLsbD k = w.getLsbD k)
    (above : ∀ k, r.toNat ≤ k → d.getLsbD k = pad.getLsbD k) : d = remainderData .draw r w pad := by
  apply BitVec.eq_of_getLsbD_eq
  intro k _
  obtain low | high := Nat.lt_or_ge k r.toNat
  · rw [valid k low, remainderData_getLsbD _ w pad low]
  · rw [above k high, remainderData_draw_getLsbD_above w pad high]

/-- R84: any data with the table word's valid bits is what `draw` writes when it draws the data itself. -/
theorem remainderData_draw_self {r : BitVec 5} {w d : Word} (valid : ∀ k < r.toNat, d.getLsbD k = w.getLsbD k) :
    d = remainderData .draw r w d :=
  eq_remainderData_draw valid fun _ _ => rfl

/-- Settles O24: every policy keeps the valid bits, and whatever stands above them could have been drawn. -/
theorem everyPadPolicyIsADraw : Obligations.EveryPadPolicyIsADraw := fun policy _ w pad =>
  have valid := fun _ low => remainderData_getLsbD policy w pad low
  ⟨valid, fun _ high => remainderData_draw_getLsbD_above w pad high, _, remainderData_draw_self valid⟩

/-- With no remainder bit all data are pad bits, and under `draw` each of them is drawn. -/
theorem remainderData_draw_no_bits (w pad : Word) : remainderData .draw 0#5 w pad = pad :=
  (eq_remainderData_draw (r := 0#5) (fun k low => absurd low (Nat.not_lt_zero k)) fun _ _ => rfl).symm

/-- With no remainder bit all data are pad bits, and under `zero` they are 0. -/
theorem remainderData_zero_no_bits (w pad : Word) : remainderData .zero 0#5 w pad = 0#32 :=
  BitVec.and_zero

/-! ### What the operations do at any operand, the unstated ones among them (log 7) -/

section Operations

variable {s : State}

theorem exec_select_of_chain_above (h : 3 < s.chainId.toNat) :
    exec .select s = .next ((s.writeEn (Config.enOutside s.chainId)).goto .plan) := by
  rw [← enableValue_of_chain_above h]
  rfl

theorem wordsOf_pos_iff (n : BitVec 8) : wordsOf n > 0#3 ↔ 32 ≤ n.toNat := by
  rw [gt_iff_lt, BitVec.lt_def, wordsOf_toNat]
  change 0 < n.toNat / 32 ↔ _
  omega

/-- R138: what `HDR` does with any `CUR_L`, the header aside. -/
theorem exec_hdr (s : State) :
    exec .hdr s =
      .next
        { s with
          trace := s.trace ++ [⟨.write, 0x14#8, (header s.curL).setWidth 32⟩]
          wcnt := BitVec.ofNat 3 (s.curL.toNat / 32)
          rem := BitVec.ofNat 5 (s.curL.toNat % 32)
          phase := if 32 ≤ s.curL.toNat then .data else .remw } := by
  have words : BitVec.ofNat 3 (s.curL.toNat / 32) = wordsOf s.curL := by
    rw [← wordsOf_toNat, BitVec.ofNat_toNat, BitVec.setWidth_eq]
  have remainder : BitVec.ofNat 5 (s.curL.toNat % 32) = remainderOf s.curL := by
    rw [← remainderOf_toNat, BitVec.ofNat_toNat, BitVec.setWidth_eq]
  simp only [words, remainder, ← wordsOf_pos_iff]
  rfl

theorem exec_dataw_of_word {w : Word} (inside : s.idx.toNat < s.tableLen.toNat)
    (word : tableWord s.table s.idx.toNat = some w) :
    exec .dataw s =
      .next
        { s with
          trace := s.trace ++ [⟨.write, 0x1C#8, w⟩]
          idx := s.idx + 1#32
          wcnt := decWcnt s.wcnt
          phase := if decWcnt s.wcnt ≠ 0#3 then .data else if s.rem ≠ 0#5 then .remw else .nextChunk } := by
  rw [exec_dataw, execDataw, tblRead_ok.2 ⟨inside, word⟩]
  simp only [gt_iff_lt, BitVec.pos_iff_ne_zero]
  rfl

theorem exec_remw_of_word {w : Word} (inside : s.idx.toNat < s.tableLen.toNat)
    (word : tableWord s.table s.idx.toNat = some w) :
    exec .remw s =
      .next
        { s with
          trace := s.trace ++
            [⟨.write, (remainderPort s.rem).offset,
              remainderData s.params.padPolicy s.rem w (Config.padDraw s.draws)⟩]
          idx := s.idx + 1#32
          rem := 0#5
          draws := s.draws + 1
          phase := .nextChunk } := by
  rw [exec_remw, execRemw, tblRead_ok.2 ⟨inside, word⟩]
  rfl

/-- R111: the four top bits are the busy bits. -/
theorem busy_iff (v : Word) : busy v = true ↔ 2 ^ 28 ≤ v.toNat := by
  have top : (active v).toNat = v.toNat / 2 ^ 31 % 2 := by
    rw [active, BitVec.extractLsb'_toNat, Nat.shiftRight_eq_div_pow]
  have count : (wfifocnt v).toNat = v.toNat / 2 ^ 28 % 8 := by
    rw [wfifocnt, BitVec.extractLsb'_toNat, Nat.shiftRight_eq_div_pow]
  have bound := v.isLt
  simp only [busy, Bool.or_eq_true, beq_iff_eq, decide_eq_true_eq, gt_iff_lt, BitVec.lt_def, ← BitVec.toNat_inj, top,
    count, BitVec.toNat_ofNat]
  omega

/-- R113: a busy word takes one from the budget, and the check goes on while some is left. -/
theorem exec_poll_of_busy (h : 2 ^ 28 ≤ s.statusAnswer.toNat) :
    exec .poll s =
      .next
        { s.readStat with
          budget := decBudget s.budget
          poll := if decBudget s.budget = 0#32 then .timedOut else s.poll
          verdict := if decBudget s.budget = 0#32 then .active else s.verdict
          result :=
            if decBudget s.budget ≠ 0#32 then s.result else if s.op = 0#1 then .ok else .engineTimeout
          phase := if decBudget s.budget = 0#32 then .ready else .monRead } := by
  change execPoll s = _
  rw [execPoll, if_pos ((busy_iff _).2 h)]
  by_cases spent : decBudget s.budget = 0#32
  · by_cases op : s.op = 0#1
    · simp [spent, op, endOfCheck_isIdle, verdictOf]
    · simp [spent, op, endOfCheck_timedOut]
  · simp [spent, State.goto]

end Operations

/-- Settles O12: each operation's own equation, at the operand whose value the spec does not state. -/
theorem unstatedValuesStayOpen : Obligations.UnstatedValuesStayOpen := by
  intro s
  refine ⟨fun above => exec_select_of_chain_above above, fun outside => ?_, fun w inside word spent => ?_,
    fun w inside word noBits => ?_, fun busy spent => ?_⟩
  · rw [exec_hdr, header_of_outside outside]
  · rw [exec_dataw_of_word inside word, spent]
    rfl
  · rw [exec_remw_of_word inside word, noBits]
    cases s.params.padPolicy with
    | draw => rw [remainderData_draw_no_bits]; rfl
    | zero => rw [remainderData_zero_no_bits]; rfl
    | passthrough => rfl
  · rw [exec_poll_of_busy busy, spent]
    rfl

end Sys2Proof.Machine
end

section
/-! Proofs about one step and what it fetches (30_encoding.md R78, R80, 43_arithmetic_and_sequencing.md R176; log 11,
log 14). -/

namespace Sys2Proof.Machine

/-- On a free bus a step of a block that owns the register block runs what is fetched. -/
theorem step_of_fetched_free {s : State} {e : Encoded} {i : Instr} (noReset : s.resetRequest = false)
    (free : s.busHeld = false) (owned : s.placed = none ∨ s.phase = .ready) (fetched : s.fetch = some e)
    (decoded : decode e = .ok i) : step s = exec i s.consume := by
  have own : s.breaksOwnership = false := owned.elim breaksOwnership_of_none breaksOwnership_of_ready
  have runs : s.stuckAt i = false := by rw [State.stuckAt, free, Bool.false_and]
  rw [step_of_fetched noReset own fetched decoded, runs]
  rfl

/-- Settles O30: the step, and what is fetched and used up in each of the three cases. -/
theorem stepRunsTheFetchedOperation : Obligations.StepRunsTheFetchedOperation := by
  intro s noReset
  refine ⟨fun e i free owned fetched decoded => step_of_fetched_free noReset free owned fetched decoded,
    fun e placed => ⟨fetch_placed placed, consume_placed placed⟩, fun r rest unplaced ready offers => ?_,
    fun unplaced busy => ⟨fetch_busy unplaced busy, consume_busy unplaced busy⟩⟩
  refine ⟨fetch_ready_offer unplaced ready offers, ?_⟩
  rw [consume_ready unplaced ready, offers, List.tail_cons]

/-- Settles O33: the placed key is fetched, and the decoder's reason is the refusal's. -/
theorem undescribedKeyIsRefused : Obligations.UndescribedKeyIsRefused := by
  intro s e r noReset placed undecodable
  simp [step, noReset, fetch_placed placed, undecodable]

end Sys2Proof.Machine
end

section
/-! Proofs about the bus operations run on their own (40_bus_ops.md R100 to R105). -/

namespace Sys2Proof.Machine

/-! ### What each bus operation does, as an update of the state -/

/-- R101. -/
theorem exec_rdStat (s : State) : exec .rdStat s = .next s.readStat := rfl

/-- R102. -/
theorem exec_wrEn (v : Word) (s : State) : exec (.wrEn v) s = .next (s.writeEn v) := rfl

/-- R103. -/
theorem exec_wrFifo1 (v : Word) (s : State) : exec (.wrFifo1 v) s = .next (s.writeFifo .fifo1 v) := rfl

/-- R104. -/
theorem exec_wrFifo2 (v : Word) (s : State) : exec (.wrFifo2 v) s = .next (s.writeFifo .fifo2 v) := rfl

/-- R105. -/
theorem exec_wrFifo4 (v : Word) (s : State) : exec (.wrFifo4 v) s = .next (s.writeFifo .fifo4 v) := rfl

/-- R100: a port write is one event at the port's offset and nothing else. -/
theorem writeFifo_eq (s : State) (port : Reg) (v : Word) :
    s.writeFifo port v = { s with trace := s.trace ++ [⟨.write, port.offset, v⟩] } := rfl

/-- Settles O17: each operation is its update of the state, and the offsets are those of R41. -/
theorem busOperationsRecordOneAccess : Obligations.BusOperationsRecordOneAccess := by
  intro v s
  obtain ⟨stat, en, fifo1, fifo2, fifo4, -⟩ := registerAddressesAreAligned
  refine ⟨?_, ?_, ?_, ?_, ?_⟩
  · rw [exec_rdStat, State.readStat, stat]
  · rw [exec_wrEn, State.writeEn, en]
  · rw [exec_wrFifo1, writeFifo_eq, fifo1]
  · rw [exec_wrFifo2, writeFifo_eq, fifo2]
  · rw [exec_wrFifo4, writeFifo_eq, fifo4]

end Sys2Proof.Machine
end

section
/-! Proofs about the Engine Status Monitor's operations one by one (41_status_monitor.md R111 to R117). -/

namespace Sys2Proof.Machine

/-! ### The fields of a status word (R111) -/

@[simp] theorem active_toNat (v : Word) : (active v).toNat = v.toNat / 2 ^ 31 := by
  have bit : v.toNat / 2 ^ 31 < 2 := by omega
  rw [active, BitVec.extractLsb'_toNat, Nat.shiftRight_eq_div_pow, Nat.mod_eq_of_lt bit]

@[simp] theorem wfifocnt_toNat (v : Word) : (wfifocnt v).toNat = v.toNat / 2 ^ 28 % 8 := by
  rw [wfifocnt, BitVec.extractLsb'_toNat, Nat.shiftRight_eq_div_pow]

/-- The mask of the four top bits keeps a word's multiple of 2^28. -/
theorem topFourBits_toNat (v : Word) : (v &&& 0xF0000000#32).toNat = v.toNat / 2 ^ 28 * 2 ^ 28 := by
  have mask : 0xF0000000#32 = BitVec.allOnes 32 <<< 28 := by decide
  have bound := v.isLt
  rw [mask, ← BitVec.shiftLeft_ushiftRight, BitVec.toNat_shiftLeft, BitVec.toNat_ushiftRight,
    Nat.shiftRight_eq_div_pow, Nat.shiftLeft_eq]
  omega

/-- Settles O16: the fields are quotients, and a word is busy from 2^28 on, which is where the mask finds a bit. -/
theorem busyReadsTheTopFourBits : Obligations.BusyReadsTheTopFourBits := by
  intro v
  refine ⟨active_toNat v, wfifocnt_toNat v, ?_, ?_⟩
  · simp [busy, BitVec.lt_def]
  · rw [busy_iff, ne_eq, ← BitVec.toNat_inj, topFourBits_toNat, BitVec.toNat_zero]
    omega

theorem busy_eq_false_iff (v : Word) : busy v = false ↔ v.toNat < 2 ^ 28 := by
  rw [← Bool.not_eq_true, busy_iff, Nat.not_le]

/-! ### The end of a check, for either command (R116) -/

theorem endOfCheck_idle_eq (s : State) :
    s.endOfCheck .idle =
      if s.op = 0#1 then { s with poll := .idle, verdict := .idle, result := .ok, phase := .ready }
      else { s with poll := .idle, verdict := .idle, phase := .hdr } := by
  split
  · next isIdle => exact endOfCheck_isIdle .idle isIdle
  · next programming => exact endOfCheck_idle programming

theorem endOfCheck_timedOut_eq (s : State) :
    s.endOfCheck .timedOut =
      { s with
        poll := .timedOut
        verdict := .active
        result := if s.op = 0#1 then .ok else .engineTimeout
        phase := .ready } := by
  split
  · next isIdle => exact endOfCheck_isIdle .timedOut isIdle
  · next programming => exact endOfCheck_timedOut programming

/-! ### What each operation does -/

section Operations

variable {s : State}

/-- R112. -/
theorem exec_check_of_budget (h : s.maxi ≠ 0#32) :
    exec .check s = .next { s with budget := s.maxi, poll := .polling, phase := .monRead } :=
  if_neg h

/-- R115: without a budget the check ends at once. -/
theorem exec_check_of_no_budget (h : s.maxi = 0#32) : exec .check s = .next (s.endOfCheck .timedOut) :=
  if_pos h

/-- R113: an idle word ends the check, whatever the budget. -/
theorem exec_poll_of_idle (h : s.statusAnswer.toNat < 2 ^ 28) : exec .poll s = .next (s.readStat.endOfCheck .idle) := by
  change execPoll s = _
  rw [execPoll, (busy_eq_false_iff _).2 h]
  rfl

/-- R113: a busy word with more than one unit of the budget left. -/
theorem exec_poll_of_busy_left (h : 2 ^ 28 ≤ s.statusAnswer.toNat) (left : 2 ≤ s.budget.toNat) :
    exec .poll s =
      .next { s.readStat with budget := BitVec.ofNat 32 (s.budget.toNat - 1), phase := .monRead } := by
  have units := decBudget_toNat (b := s.budget) (by omega)
  have some_left : decBudget s.budget ≠ 0#32 := by
    intro spent
    rw [spent, BitVec.toNat_zero] at units
    omega
  rw [exec_poll_of_busy h, ← units, BitVec.ofNat_toNat, BitVec.setWidth_eq]
  simp [some_left]

/-- R113: a busy word on the last unit of the budget. -/
theorem exec_poll_of_busy_last (h : 2 ^ 28 ≤ s.statusAnswer.toNat) (last : s.budget.toNat = 1) :
    exec .poll s = .next (({ s.readStat with budget := 0#32 } : State).endOfCheck .timedOut) := by
  have spent : decBudget s.budget = 0#32 :=
    BitVec.eq_of_toNat_eq (by rw [decBudget_toNat (by omega), last, BitVec.toNat_zero])
  rw [exec_poll_of_busy h, endOfCheck_timedOut_eq, spent]
  rfl

end Operations

/-- Settles O1: the branch of a `READY` block. -/
theorem isIdleAcceptedWhenReady : Obligations.IsIdleAcceptedWhenReady := fun m _ ready => exec_isIdle_of_ready m ready

/-- Settles O13: with a budget and without one. -/
theorem checkStartsPollingOrTimesOut : Obligations.CheckStartsPollingOrTimesOut := by
  refine ⟨decode_monStart, fun s => ⟨exec_check_of_budget, fun noBudget => ?_⟩⟩
  rw [exec_check_of_no_budget noBudget, endOfCheck_timedOut_eq]

/-- Settles O14: an idle word, a busy word with budget left, and a busy word on the last unit. -/
theorem pollReadsDecodesDecides : Obligations.PollReadsDecodesDecides := by
  refine ⟨decode_monRead, fun s r read => ?_⟩
  have read : r = s.readStat := read
  subst read
  refine ⟨fun idle => ?_, exec_poll_of_busy_left, fun busy last => ?_⟩
  · rw [exec_poll_of_idle idle, endOfCheck_idle_eq]
    rfl
  · rw [exec_poll_of_busy_last busy last, endOfCheck_timedOut_eq]
    rfl

end Sys2Proof.Machine
end

section
/-! Facts about the idle check as a whole (41_status_monitor.md R114, R118): which answers it reads, and what it has read
when it ends. -/

namespace Sys2Proof.Machine

/-- The answer the `n`-th status read from `f` on returns (counted from 0). -/
def Flow.answer (f : Flow) (n : Nat) : Word := nextAnswer (f.answers.drop n) (f.reads + n)

/-- The flow after `n` status reads and nothing else. -/
def Flow.afterReads (f : Flow) (n : Nat) : Flow :=
  { f with
    trace := f.trace ++ (List.range n).map (fun i => ⟨.read, 0x00#8, f.answer i⟩)
    answers := f.answers.drop n
    reads := f.reads + n }

@[simp] theorem Flow.read_value (f : Flow) : f.read.1 = f.answer 0 := rfl

theorem Flow.answer_read (f : Flow) (n : Nat) : f.read.2.answer n = f.answer (n + 1) := by
  simp only [Flow.answer, Flow.read, List.drop_tail, Nat.add_assoc, Nat.add_comm 1]

@[simp] theorem Flow.afterReads_zero (f : Flow) : f.afterReads 0 = f := by
  simp [Flow.afterReads]

theorem Flow.afterReads_read (f : Flow) (n : Nat) : f.read.2.afterReads n = f.afterReads (n + 1) := by
  simp only [Flow.afterReads, Flow.answer_read, List.range_succ_eq_map, List.map_cons, List.map_map]
  simp only [Flow.read, Reg.offset, List.drop_tail, List.append_assoc, List.singleton_append, Nat.add_assoc,
    Nat.add_comm 1]
  rfl

@[simp] theorem Flow.afterReads_one (f : Flow) : f.afterReads 1 = f.read.2 := by
  rw [← Flow.afterReads_read, Flow.afterReads_zero]

theorem idleCheck_succ_of_idle {f : Flow} (m : Nat) (idle : busy (f.answer 0) = false) :
    idleCheck (m + 1) f = (.idle, f.read.2) := by
  rw [idleCheck, Flow.read_value, idle]
  rfl

theorem idleCheck_succ_of_busy {f : Flow} (m : Nat) (busyAnswer : busy (f.answer 0) = true) :
    idleCheck (m + 1) f = idleCheck m f.read.2 :=
  if_pos busyAnswer

/-- R118 (a): the check ends with the first idle answer, if that comes within the budget. -/
theorem idleCheck_of_first_idle {m j : Nat} {f : Flow} (inside : j < m) (idle : busy (f.answer j) = false)
    (before : ∀ n < j, busy (f.answer n) = true) : idleCheck m f = (.idle, f.afterReads (j + 1)) := by
  induction j generalizing m f with
  | zero =>
    obtain ⟨m, rfl⟩ := Nat.exists_eq_add_of_lt inside
    rw [idleCheck_succ_of_idle _ idle, Flow.afterReads_one]
  | succ j ih =>
    obtain ⟨m, rfl⟩ := Nat.exists_eq_add_of_le' (Nat.one_le_of_lt inside)
    rw [idleCheck_succ_of_busy m (before 0 (Nat.succ_pos j)),
      ih (Nat.lt_of_succ_lt_succ inside) (by rwa [Flow.answer_read]) fun n earlier => ?_, Flow.afterReads_read]
    rw [Flow.answer_read]
    exact before (n + 1) (Nat.succ_lt_succ earlier)

/-- R118 (b): busy answers use the budget up. -/
theorem idleCheck_of_all_busy {m : Nat} {f : Flow} (allBusy : ∀ n < m, busy (f.answer n) = true) :
    idleCheck m f = (.active, f.afterReads m) := by
  induction m generalizing f with
  | zero => rw [idleCheck, Flow.afterReads_zero]
  | succ m ih =>
    rw [idleCheck_succ_of_busy m (allBusy 0 (Nat.succ_pos m)), ih fun n inside => ?_, Flow.afterReads_read]
    rw [Flow.answer_read]
    exact allBusy (n + 1) (Nat.succ_lt_succ inside)

/-- Settles O48: the two parts of R118; its `j` counts the answers from 1. -/
theorem idleCheckCountsItsReads : Obligations.IdleCheckCountsItsReads := by
  intro m f
  refine ⟨fun j pos inside idle before => ?_, fun allBusy => idleCheck_of_all_busy allBusy⟩
  obtain ⟨j, rfl⟩ := Nat.exists_eq_add_of_le' pos
  exact idleCheck_of_first_idle inside idle before

/-- Whatever the answers, an idle check makes status reads only, and at most its budget. -/
theorem idleCheck_eq_afterReads (m : Nat) (f : Flow) : ∃ n ≤ m, (idleCheck m f).2 = f.afterReads n := by
  induction m generalizing f with
  | zero => exact ⟨0, Nat.le_refl 0, f.afterReads_zero.symm⟩
  | succ m ih =>
    cases first : busy (f.answer 0) with
    | false =>
      refine ⟨1, Nat.succ_pos m, ?_⟩
      rw [idleCheck_succ_of_idle m first, Flow.afterReads_one]
    | true =>
      obtain ⟨n, le, reads⟩ := ih f.read.2
      refine ⟨n + 1, Nat.succ_le_succ le, ?_⟩
      rw [idleCheck_succ_of_busy m first, reads, Flow.afterReads_read]

/-- The bus operations an idle check adds to the trace. -/
theorem idleCheck_events (m : Nat) (f : Flow) :
    ∃ ev : List BusEvent, (idleCheck m f).2.trace = f.trace ++ ev ∧ ev.length ≤ m ∧
      ∀ e ∈ ev, e.dir = .read ∧ e.offset = 0x00#8 := by
  obtain ⟨n, within, reads⟩ := idleCheck_eq_afterReads m f
  rw [reads]
  refine ⟨_, rfl, by simpa using within, fun e mem => ?_⟩
  obtain ⟨i, -, rfl⟩ := List.mem_map.1 mem
  exact ⟨rfl, rfl⟩

end Sys2Proof.Machine
end

section
/-! Proof that `CHECK` and `POLL` agree with the idle check as a whole (41_status_monitor.md R114, R116, R117). The state
in which a check ends is given as one function of the state it starts from and of what the algorithm answers; a run is
followed together with the fact that the block stays busy on the way, so that it also shows where a command ends. -/

namespace Sys2Proof.Machine

/-! ### The states of a command's idle check -/

/-- The block right after it has accepted an `IS_IDLE` with budget `m`; `rest` is still offered. -/
def State.afterIsIdle (s : State) (m : Word) (rest : List CmdRecord) : State :=
  { s with op := 0#1, maxi := m, result := .none, phase := .monStart, offers := rest }

/-- The state in `MON_READ` of a check that began in `s`, once its reads have come to the flow `f` and `b` units of the
budget are left. -/
def State.inCheck (s : State) (f : Flow) (b : Word) : State :=
  { s with
    trace := f.trace, answers := f.answers, reads := f.reads, draws := f.draws
    budget := b, poll := .polling, phase := .monRead }

/-- `POLL` at the end of a check with the given verdict (R116). -/
def Verdict.poll : Verdict → PollState
  | .idle => .idle
  | .active => .timedOut

/-- The end of a check that began in `s` and that the algorithm answers with `o`, `b` units of the budget being left. -/
def State.afterCheck (s : State) (o : Verdict × Flow) (b : Word) : State := (s.inCheck o.2 b).endOfCheck o.1.poll

@[simp] theorem verdictOf_poll (v : Verdict) : verdictOf v.poll = v := by
  cases v <;> rfl

section Ends

variable {s : State} (o : Verdict × Flow) (f : Flow) (b : Word)

/-- Either command: a check ends with the algorithm's verdict and flow. -/
theorem afterCheck_agrees :
    (s.afterCheck o b).verdict = o.1 ∧ (s.afterCheck o b).flow = o.2 ∧ (s.afterCheck o b).poll = o.1.poll := by
  obtain ⟨r, ph, writes⟩ := endOfCheck_writes (s.inCheck o.2 b) o.1.poll
  rw [State.afterCheck, writes]
  exact ⟨verdictOf_poll o.1, rfl, rfl⟩

theorem afterCheck_isIdle (isIdle : s.op = 0#1) :
    s.afterCheck o b = { s.inCheck o.2 b with poll := o.1.poll, verdict := o.1, result := .ok, phase := .ready } := by
  have sameOp : (s.inCheck o.2 b).op = 0#1 := isIdle
  rw [State.afterCheck, endOfCheck_isIdle _ sameOp, verdictOf_poll]

theorem afterCheck_idle (programming : s.op ≠ 0#1) :
    s.afterCheck (.idle, f) b = { s.inCheck f b with poll := .idle, verdict := .idle, phase := .hdr } :=
  endOfCheck_idle (s := s.inCheck f b) programming

theorem afterCheck_active (programming : s.op ≠ 0#1) :
    s.afterCheck (.active, f) b =
      { s.inCheck f b with poll := .timedOut, verdict := .active, result := .engineTimeout, phase := .ready } :=
  endOfCheck_timedOut (s := s.inCheck f b) programming

end Ends

/-! ### The steps of a check, in these terms -/

theorem exec_check_inCheck {s : State} (budget : s.maxi ≠ 0#32) :
    exec .check s = .next (s.inCheck s.flow s.maxi) :=
  exec_check_of_budget budget

theorem exec_check_afterCheck {s : State} (noBudget : s.maxi = 0#32) :
    exec .check s = .next (s.afterCheck (.active, s.flow) s.budget) := by
  rw [exec_check_of_no_budget noBudget, State.afterCheck, Verdict.poll, endOfCheck_timedOut_eq, endOfCheck_timedOut_eq]
  rfl

section Polls

variable (s : State) {f : Flow} {b : Word}

theorem exec_poll_inCheck_idle (idle : busy (f.answer 0) = false) :
    exec .poll (s.inCheck f b) = .next (s.afterCheck (.idle, f.read.2) b) :=
  exec_poll_of_idle (s := s.inCheck f b) ((busy_eq_false_iff _).1 idle)

theorem exec_poll_inCheck_left (busyAnswer : busy (f.answer 0) = true) (left : 2 ≤ b.toNat) :
    exec .poll (s.inCheck f b) = .next (s.inCheck f.read.2 (BitVec.ofNat 32 (b.toNat - 1))) :=
  exec_poll_of_busy_left (s := s.inCheck f b) ((busy_iff _).1 busyAnswer) left

theorem exec_poll_inCheck_last (busyAnswer : busy (f.answer 0) = true) (last : b.toNat = 1) :
    exec .poll (s.inCheck f b) = .next (s.afterCheck (.active, f.read.2) 0#32) :=
  exec_poll_of_busy_last (s := s.inCheck f b) ((busy_iff _).1 busyAnswer) last

end Polls

end Sys2Proof.Machine

namespace Sys2Proof.Safety

open Sys2Proof.Machine

/-! ### Runs on which the block stays busy -/

/-- A step of an undisturbed busy block runs the operation that `PHASE` selects. -/
theorem step_of_undisturbed_busy {s : State} {i : Instr} (own : Undisturbed s) (busy : s.phase ≠ .ready)
    (decoded : decode (.seq s.phase.code) = .ok i) : step s = exec i s := by
  obtain ⟨noReset, unplaced, free⟩ := own
  rw [step_of_fetched_free noReset free (.inl unplaced) (fetch_busy unplaced busy) decoded, consume_busy unplaced busy]

/-- `k` steps lead from `s` to `t`, and the block is busy before each of them. -/
def LeadsBusy (k : Nat) (s t : State) : Prop := Leads k s t ∧ ∀ j u, j < k → Leads j s u → u.phase ≠ .ready

theorem leadsBusy_succ {k : Nat} {s u t : State} (busy : s.phase ≠ .ready) (first : step s = .next u)
    (rest : LeadsBusy k u t) : LeadsBusy (k + 1) s t := by
  obtain ⟨run, busyAfter⟩ := rest
  refine ⟨leads_succ.2 ⟨u, first, run⟩, fun j v inside before => ?_⟩
  cases j with
  | zero => rwa [← leads_zero.1 before]
  | succ j =>
    obtain ⟨w, toW, later⟩ := leads_succ.1 before
    rw [first] at toW
    cases toW
    exact busyAfter j v (Nat.lt_of_succ_lt_succ inside) later

theorem leadsBusy_one {s t : State} (busy : s.phase ≠ .ready) (only : step s = .next t) : LeadsBusy 1 s t :=
  leadsBusy_succ busy only ⟨leads_zero.2 rfl, fun _ _ inside => absurd inside (Nat.not_lt_zero _)⟩

/-- A command ends where the block comes to be `READY` again after its acceptance. -/
theorem endsAfter_of_leadsBusy {k : Nat} {s u t : State} (accepted : step s = .next u) (run : LeadsBusy k u t)
    (ready : t.phase = .ready) : EndsAfter (k + 1) s t := by
  obtain ⟨leads, busy⟩ := run
  refine ⟨Nat.succ_pos k, leads_succ.2 ⟨u, accepted, leads⟩, ready, fun j v pos inside before => ?_⟩
  obtain ⟨j, rfl⟩ := Nat.exists_eq_add_of_le' pos
  obtain ⟨w, toW, later⟩ := leads_succ.1 before
  rw [accepted] at toW
  cases toW
  exact busy j v (Nat.lt_of_succ_lt_succ inside) later

/-! ### A whole check -/

/-- In `MON_READ` with `m` units of the budget left, the block polls as the algorithm reads, once a step. -/
theorem inCheck_leads_afterCheck {s : State} (own : Undisturbed s) {m : Nat} {f : Flow} {b : Word} (pos : 1 ≤ m)
    (units : b.toNat = m) :
    ∃ k left, k ≤ m ∧ LeadsBusy k (s.inCheck f b) (s.afterCheck (idleCheck m f) left) := by
  have busyBlock {f : Flow} {b : Word} : (s.inCheck f b).phase ≠ .ready := Phase.noConfusion
  have polls {f : Flow} {b : Word} : step (s.inCheck f b) = exec .poll (s.inCheck f b) :=
    step_of_undisturbed_busy own busyBlock decode_monRead
  induction m generalizing f b with
  | zero => cases pos
  | succ m ih =>
    cases first : busy (f.answer 0) with
    | false =>
      refine ⟨1, b, pos, leadsBusy_one busyBlock ?_⟩
      rw [polls, exec_poll_inCheck_idle s first, idleCheck_succ_of_idle m first]
    | true =>
      rw [idleCheck_succ_of_busy m first]
      obtain rfl | more := Nat.eq_zero_or_pos m
      · exact ⟨1, 0#32, pos, leadsBusy_one busyBlock (polls.trans (exec_poll_inCheck_last s first units))⟩
      · have unitsLeft : (BitVec.ofNat 32 (b.toNat - 1)).toNat = m := by
          rw [units, BitVec.toNat_ofNat]
          omega
        obtain ⟨k, left, le, rest⟩ := ih (f := f.read.2) more unitsLeft
        have severalUnits : 2 ≤ b.toNat := by omega
        have goesOn := polls.trans (exec_poll_inCheck_left s first severalUnits)
        exact ⟨k + 1, left, Nat.succ_le_succ le, leadsBusy_succ busyBlock goesOn rest⟩

/-- R114: from `MON_START` the block makes the whole check, and is busy until its end. -/
theorem monStart_leads_afterCheck {s : State} (own : Undisturbed s) (phase : s.phase = .monStart) :
    ∃ k left, k ≤ s.maxi.toNat + 1 ∧ LeadsBusy k s (s.afterCheck (idleCheck s.maxi.toNat s.flow) left) := by
  have busyBlock : s.phase ≠ .ready := by rw [phase]; decide
  have checks : step s = exec .check s := step_of_undisturbed_busy own busyBlock (phase ▸ decode_monStart)
  by_cases noBudget : s.maxi = 0#32
  · refine ⟨1, s.budget, Nat.succ_pos _, leadsBusy_one busyBlock ?_⟩
    rw [checks, exec_check_afterCheck noBudget, noBudget]
    rfl
  · obtain ⟨k, left, le, polls⟩ := inCheck_leads_afterCheck own (f := s.flow) (one_le_toNat noBudget) rfl
    have starts := checks.trans (exec_check_inCheck noBudget)
    exact ⟨k + 1, left, Nat.succ_le_succ le, leadsBusy_succ busyBlock starts polls⟩

/-- Settles O49: the run of a whole check, and what its end says for either command. -/
theorem monitorAgreesWithIdleCheck : Obligations.MonitorAgreesWithIdleCheck := by
  intro s own phase
  obtain ⟨k, left, le, run, -⟩ := monStart_leads_afterCheck own phase
  generalize idleCheck s.maxi.toNat s.flow = o at run ⊢
  obtain ⟨verdict, flow⟩ := o
  obtain ⟨sameVerdict, sameFlow, poll⟩ := afterCheck_agrees (s := s) (verdict, flow) left
  have pollOf {v : Verdict} (h : (s.afterCheck (verdict, flow) left).verdict = v) :
      (s.afterCheck (verdict, flow) left).poll = v.poll := by rw [poll, ← h, sameVerdict]
  refine ⟨k, s.afterCheck (verdict, flow) left, le, run, sameVerdict, sameFlow, pollOf, pollOf, ?_, ?_, ?_⟩
  · intro isIdle
    rw [afterCheck_isIdle _ left isIdle]
    exact ⟨rfl, rfl⟩
  · rw [sameVerdict]
    rintro programming rfl
    rw [afterCheck_idle flow left (by rw [programming]; decide)]
    exact ⟨rfl, rfl⟩
  · rw [sameVerdict]
    rintro programming rfl
    rw [afterCheck_active flow left (by rw [programming]; decide)]
    exact ⟨rfl, rfl⟩

/-! ### An `IS_IDLE` command -/

theorem step_of_isIdle_offer {s : State} {r : CmdRecord} {rest : List CmdRecord} (own : Undisturbed s)
    (ready : s.phase = .ready) (offers : s.offers = r :: rest) (op : r.op = 0#1) :
    step s = .next (s.afterIsIdle r.maxIterations rest) := by
  obtain ⟨noReset, unplaced, -⟩ := own
  rw [step_of_offer noReset unplaced ready offers, decodeCmd, if_pos op]
  exact exec_isIdle_of_ready (s := { s with offers := rest }) r.maxIterations ready

/-- Settles O50: the acceptance leads to `MON_START`, and the end of the check is the end of the command. -/
theorem isIdleCommandRunsOneCheck : Obligations.IsIdleCommandRunsOneCheck := by
  intro s r ⟨own, ready, rest, offers⟩ op
  have accepted := step_of_isIdle_offer own ready offers op
  obtain ⟨k, left, le, run⟩ := monStart_leads_afterCheck (s := s.afterIsIdle r.maxIterations rest) own rfl
  rw [afterCheck_isIdle _ left rfl] at run
  obtain ⟨ev, trace, within, onlyReads⟩ := idleCheck_events r.maxIterations.toNat s.flow
  have events {t : State} (h : t.trace = s.trace ++ ev) : newEvents s t = ev := by rw [newEvents, h, List.drop_left]
  refine ⟨k + 1, _, endsAfter_of_leadsBusy accepted run rfl, Nat.succ_le_succ le, rfl, rfl, rfl, ?_, ?_, rfl, ?_⟩
  · rwa [events trace]
  · rwa [events trace]
  · rw [offers]
    rfl

end Sys2Proof.Safety
end

section
/-! Proofs about the Chain Programmer's operations one by one (42_chain_programmer.md R131 to R141). Each operation's
equation is written in numbers, as the rules give it. -/

namespace Sys2Proof.Machine

/-! ### The operands, as the numbers the rules write -/

theorem setWidth_eq_ofNat {v w : Nat} {x : BitVec v} {n : Nat} (h : x.toNat = n) : x.setWidth w = BitVec.ofNat w n := by
  rw [← h, BitVec.ofNat_toNat]

theorem eq_ofNat {w : Nat} {x : BitVec w} {n : Nat} (h : x.toNat = n) : x = BitVec.ofNat w n := by
  rw [← h, BitVec.ofNat_toNat, BitVec.setWidth_eq]

/-- R72: the enable value of chain `c` is `2 ^ c`. -/
theorem enableValue_eq_two_pow {c : Word} (h : c.toNat ≤ 3) : enableValue c = BitVec.ofNat 32 (2 ^ c.toNat) := by
  rw [enableValue_of_chain h]
  apply BitVec.eq_of_toNat_eq
  simp [Nat.shiftLeft_eq]

/-- R86: the offset of a remainder's port. -/
theorem remainderPort_offset {r : BitVec 5} (pos : 1 ≤ r.toNat) :
    (remainderPort r).offset = if r.toNat ≤ 8 then 0x10#8 else if r.toNat ≤ 16 then 0x14#8 else 0x1C#8 := by
  rw [remainderPortIsTheNarrowest r pos, apply_ite Reg.offset, apply_ite Reg.offset]
  rfl

/-- R84: under `zero` the pad bits are 0. -/
theorem remainderData_zero_getLsbD_above {r : BitVec 5} (w pad : Word) {k : Nat} (h : r.toNat ≤ k) :
    (remainderData .zero r w pad).getLsbD k = false := by
  simp [remainderData, lowOnes_getLsbD_above h]

/-! ### What each operation does -/

section Operations

variable {s : State}

/-- R131: the two tests of `VALIDATE`, over the naturals. -/
theorem exec_validate_eq (s : State) :
    exec .validate s =
      .next
        (if 3 < s.chainId.toNat ∨ s.tableLen.toNat < (s.len.toNat + 31) / 32 then
          { s with result := .invalidInput, phase := .ready }
        else { s with phase := .select }) := by
  by_cases chain : 3 < s.chainId.toNat
  · rw [exec_validate_of_chain_above chain, if_pos (.inl chain)]
    rfl
  · have fits : ¬s.chainId > 3#32 := chain
    by_cases short : s.tableLen.toNat < (s.len.toNat + 31) / 32
    · have below : s.tableLen < ceil32 s.len := by rwa [BitVec.lt_def, ceil32_toNat]
      rw [exec_validate, execValidate, if_neg fits, if_pos below, if_pos (.inr short)]
      rfl
    · have notBelow : ¬s.tableLen < ceil32 s.len := by rwa [BitVec.lt_def, ceil32_toNat]
      rw [exec_validate, execValidate, if_neg fits, if_neg notBelow, if_neg (not_or.2 ⟨chain, short⟩)]
      rfl

/-- R132. -/
theorem exec_select_of_chain (chain : s.chainId.toNat ≤ 3) :
    exec .select s = .next ((s.writeEn (BitVec.ofNat 32 (2 ^ s.chainId.toNat))).goto .plan) := by
  rw [← enableValue_eq_two_pow chain]
  rfl

/-- R133. -/
theorem exec_plan_eq (s : State) :
    exec .plan s =
      .next
        { s with
          fullLeft := BitVec.ofNat 32 (s.len.toNat / 128)
          res := BitVec.ofNat 7 (s.len.toNat % 128)
          idx := 0#32
          phase := .nextChunk } := by
  rw [← eq_ofNat (fullChunksOf_toNat s.len), ← eq_ofNat (residualOf_toNat s.len)]
  rfl

/-- R135, while a full chunk is left. -/
theorem exec_chunk_of_full (full : 0 < s.fullLeft.toNat) :
    exec .chunk s = .next { s with curL := 128#8, fullLeft := s.fullLeft - 1#32, phase := .monStart } :=
  if_pos full

/-- R135, when only the residual chunk is left. -/
theorem exec_chunk_of_residual (noFull : s.fullLeft.toNat = 0) (residual : 0 < s.res.toNat) :
    exec .chunk s = .next { s with curL := s.res.setWidth 8, res := 0#7, phase := .monStart } := by
  have notFull : ¬s.fullLeft > 0#32 := noFull.not_gt
  exact (if_neg notFull).trans (if_pos residual)

/-- R135, R142, when nothing is left. -/
theorem exec_chunk_of_none_left (noFull : s.fullLeft.toNat = 0) (noResidual : s.res.toNat = 0) :
    exec .chunk s = .next s.finish := by
  have notFull : ¬s.fullLeft > 0#32 := noFull.not_gt
  have notResidual : ¬s.res > 0#7 := noResidual.not_gt
  exact (if_neg notFull).trans (if_neg notResidual)

end Operations

/-! ### The statements about one operation -/

/-- Settles O2: the branch of a `READY` block, and the table space holds the words it was made of. -/
theorem programChainAcceptedWhenReady : Obligations.ProgramChainAcceptedWhenReady := fun c l n tbl _ ready =>
  ⟨exec_programChain_of_ready c l n tbl ready, tableWord_ofWords tbl⟩

/-- Settles O4: the key of the phase, and the two tests as one. -/
theorem validateChecksPreconditions : Obligations.ValidateChecksPreconditions := ⟨decode_validate, exec_validate_eq⟩

/-- Settles O5: the one write of `EN`. -/
theorem selectEnablesOneChain : Obligations.SelectEnablesOneChain :=
  ⟨decode_select, fun _ chain => exec_select_of_chain chain⟩

/-- Settles O6: the quotient and the remainder by 128. -/
theorem planPartitionsLength : Obligations.PlanPartitionsLength := ⟨decode_plan, exec_plan_eq⟩

/-- Settles O7: the three cases of `CHUNK`; the residual has 7 bits, so it is below 128. -/
theorem chunkStartsNextOrEnds : Obligations.ChunkStartsNextOrEnds := by
  refine ⟨decode_nextChunk, fun s => ⟨exec_chunk_of_full, fun noFull residual => ?_, exec_chunk_of_none_left⟩⟩
  rw [BitVec.ofNat_toNat]
  have curL : (s.res.setWidth 8).toNat = s.res.toNat := BitVec.toNat_setWidth_of_le (by decide)
  refine ⟨exec_chunk_of_residual noFull residual, ?_, ?_⟩
  · omega
  · omega

/-- Settles O8: `HDR`'s equation, with the header in its range (R75). -/
theorem hdrWritesPacketHeader : Obligations.HdrWritesPacketHeader := by
  refine ⟨decode_hdr, fun s pos le => ?_⟩
  obtain ⟨value, -⟩ := headerEncodesLengthMinusOne s.curL pos le
  rw [exec_hdr, setWidth_eq_ofNat value]

/-- Settles O9: the two comparisons that choose the next phase, in numbers. -/
theorem datawSendsOneTableWord : Obligations.DatawSendsOneTableWord := by
  refine ⟨decode_data, fun s w inside word pos => ?_⟩
  have idx : (s.idx + 1#32).toNat = s.idx.toNat + 1 := succ_toNat (by have := s.tableLen.isLt; omega)
  have wcnt : (decWcnt s.wcnt).toNat = s.wcnt.toNat - 1 := decWcnt_toNat pos
  have more : decWcnt s.wcnt ≠ 0#3 ↔ 2 ≤ s.wcnt.toNat := by
    rw [ne_eq, ← BitVec.toNat_inj, wcnt, BitVec.toNat_zero]
    omega
  have remainder : s.rem ≠ 0#5 ↔ 1 ≤ s.rem.toNat := by
    rw [ne_eq, ← BitVec.toNat_inj, BitVec.toNat_zero, Nat.one_le_iff_ne_zero]
  rw [exec_dataw_of_word inside word, ← eq_ofNat idx, ← eq_ofNat wcnt]
  simp only [more, remainder]

/-- Settles O10: the data that `REMW` writes keeps the word's bits below the remainder under every policy. -/
theorem remwSendsRemainder : Obligations.RemwSendsRemainder := by
  refine ⟨decode_remw, fun s w inside word pos => ?_⟩
  have idx : (s.idx + 1#32).toNat = s.idx.toNat + 1 := succ_toNat (by have := s.tableLen.isLt; omega)
  refine ⟨remainderData s.params.padPolicy s.rem w (Config.padDraw s.draws),
    fun k low => remainderData_getLsbD _ w _ low, fun zero k high => ?_, fun passthrough => ?_, ?_⟩
  · rw [zero]
    exact remainderData_zero_getLsbD_above w _ high
  · rw [passthrough]
    rfl
  · rw [exec_remw_of_word inside word, remainderPort_offset pos, ← eq_ofNat idx]

/-! ### Who changes `EN` (R145, R252) -/

theorem exec_decodeCmd_en {r : CmdRecord} {s t : State} (h : exec (decodeCmd r) s = .next t) : t.en = s.en := by
  unfold decodeCmd at h
  split at h
  · rw [exec_isIdle_frame h]
  · rw [exec_programChain_frame h]

theorem exec_phase_en {p : Phase} {i : Instr} {s t : State} (notSelect : p ≠ .select)
    (decoded : decode (.seq p.code) = .ok i) (h : exec i s = .next t) : t.en = s.en := by
  cases p with
  | ready => cases decoded
  | select => exact absurd rfl notSelect
  | validate => cases decoded; rw [exec_validate_frame h]
  | plan => cases decoded; rw [exec_plan_frame h]
  | nextChunk => cases decoded; rw [exec_chunk_frame h]
  | monStart => cases decoded; rw [exec_check_frame h]
  | monRead => cases decoded; rw [exec_poll_frame h]
  | hdr => cases decoded; rw [exec_hdr_frame h]
  | data => cases decoded; rw [exec_dataw_frame h]
  | remw => cases decoded; rw [exec_remw_frame h]

/-- Settles O36: a step that is no reset runs nothing from outside here, so it is an accepted command or the operation
of a phase other than `SELECT`. -/
theorem onlySelectChangesTheEnable : Obligations.OnlySelectChangesTheEnable := by
  intro s t own h cause
  by_cases reset : s.resetRequest = true
  · have taken : step s = .next s.blockReset := if_pos reset
    rw [taken] at h
    cases h
    rfl
  have notSelect : s.phase ≠ .select := cause.resolve_right reset
  obtain ⟨taken, -⟩ | ⟨-, -, rfl⟩ | ⟨-, owned, -⟩ := step_cases h
  · exact absurd taken reset
  · rfl
  have unplaced : s.placed = none := own.elim id fun busy => owned.resolve_right busy
  obtain ⟨taken, -⟩ | rfl | ⟨-, r, rest, -, ran⟩ | ⟨-, i, decoded, ran⟩ := step_cases_unplaced unplaced h
  · exact absurd taken reset
  · rfl
  · exact exec_decodeCmd_en (s := { s with offers := rest }) ran
  · exact exec_phase_en notSelect decoded ran

end Sys2Proof.Machine

namespace Sys2Proof.Safety

open Sys2Proof.Machine

/-! ### Where the block reads the table (R148) -/

/-- R148: in `DATA` and `REMW` bits of the length are left from word `IDX` on. -/
theorem bits_left_at_table_read {s : State} (latches : PhaseInv s) (phase : s.phase = .data ∨ s.phase = .remw) :
    Programming s ∧ 32 * s.idx.toNat < s.len.toNat := by
  obtain data | remw := phase
  · obtain ⟨prog, pos, -, account, -⟩ := (phaseInv_data data).1 latches
    exact ⟨prog, by omega⟩
  · obtain ⟨prog, -, someRem, -, account⟩ := (phaseInv_remw remw).1 latches
    have pos := one_le_toNat someRem
    exact ⟨prog, by omega⟩

/-- Settles O46: the word that holds a bit of the length is one of those needed, and the host supplied it. -/
theorem tableReadsStayInBounds : Obligations.TableReadsStayInBounds := by
  intro s inv phase
  obtain ⟨prog, left⟩ := bits_left_at_table_read inv.latches phase
  obtain ⟨w, read⟩ := tblRead_of_programming prog left
  obtain ⟨-, word⟩ := tblRead_ok.1 read
  obtain ⟨-, -, -, tableFits, -⟩ := prog
  rw [ceil32_toNat] at tableFits
  exact ⟨by omega, tableFits, w, word⟩

end Sys2Proof.Safety
end

section
/-! Proof that the steps of a `PROGRAM_CHAIN` agree with the algorithm as a whole (42_chain_programmer.md R130 to R143).
A run is followed from part to part: the acceptance and the three operations before the first chunk, the payload of a
packet, a packet with the check before it, and the chunks one after the other. What is left of the algorithm between two
chunks is one function, `sendChunks`. -/

namespace Sys2Proof.Machine

/-! ### What is left of the algorithm between two chunks -/

/-- R130 from step 3 on: `full` full chunks from table word `i` on, then a residual chunk of `res` bits. -/
def sendChunks (p : Params) (tbl : Nat → Word) (full : Nat) (res : BitVec 7) (i : Nat) (f : Flow) :
    ResultCode × Flow :=
  let chunks := sendFullChunks p tbl full i f
  if chunks.1 = false then (.engineTimeout, chunks.2)
  else if res = 0#7 then (.ok, chunks.2)
  else
    let last := sendPacket p tbl (res.setWidth 8) (i + 4 * full) chunks.2
    (if last.1 then .ok else .engineTimeout, last.2)

/-- The bus operations of a packet after its idle check (R130 step 4): the header, the words and the remainder. -/
def sendPayload (p : Params) (tbl : Nat → Word) (curL : BitVec 8) (i : Nat) (f : Flow) : Flow :=
  sendRemainder p.padPolicy (remainderOf curL) (tbl (i + (wordsOf curL).toNat))
    (sendWords tbl (wordsOf curL).toNat i (f.write .fifo2 ((header curL).setWidth 32)))

section Algorithm

variable {p : Params} {tbl : Nat → Word} {curL : BitVec 8} {res : BitVec 7} {i : Nat} {f g : Flow}

theorem sendRemainder_zero (policy : PadPolicy) (w : Word) (f : Flow) : sendRemainder policy 0#5 w f = f := rfl

theorem sendRemainder_of_ne {policy : PadPolicy} {n : BitVec 5} (w : Word) (f : Flow) (someBits : n ≠ 0#5) :
    sendRemainder policy n w f =
      { f.write (remainderPort n) (remainderData policy n w (Config.padDraw f.draws)) with draws := f.draws + 1 } :=
  if_neg someBits

theorem sendPacket_eq_true :
    sendPacket p tbl curL i f = (true, g) ↔
      ∃ h, idleCheck p.maxIter.toNat f = (.idle, h) ∧ sendPayload p tbl curL i h = g := by
  rw [sendPacket]
  obtain ⟨verdict, h⟩ := idleCheck p.maxIter.toNat f
  cases verdict with
  | active => simp
  | idle => simp [sendPayload]

theorem sendPacket_eq_false :
    sendPacket p tbl curL i f = (false, g) ↔ idleCheck p.maxIter.toNat f = (.active, g) := by
  rw [sendPacket]
  obtain ⟨verdict, h⟩ := idleCheck p.maxIter.toNat f
  cases verdict with
  | active => simp
  | idle => simp

theorem sendChunks_none_left : sendChunks p tbl 0 0#7 i f = (.ok, f) := rfl

theorem sendChunks_full_sent (n : Nat) (packet : sendPacket p tbl 128#8 i f = (true, g)) :
    sendChunks p tbl (n + 1) res i f = sendChunks p tbl n res (i + 4) g := by
  have next : i + 4 * (n + 1) = i + 4 + 4 * n := by omega
  simp only [sendChunks, sendFullChunks, packet, next]

theorem sendChunks_full_timedOut (n : Nat) (packet : sendPacket p tbl 128#8 i f = (false, g)) :
    sendChunks p tbl (n + 1) res i f = (.engineTimeout, g) := by
  simp [sendChunks, sendFullChunks, packet]

theorem sendChunks_residual_sent (someBits : res ≠ 0#7) (packet : sendPacket p tbl (res.setWidth 8) i f = (true, g)) :
    sendChunks p tbl 0 res i f = (.ok, g) := by
  simp [sendChunks, sendFullChunks, someBits, packet]

theorem sendChunks_residual_timedOut (someBits : res ≠ 0#7)
    (packet : sendPacket p tbl (res.setWidth 8) i f = (false, g)) :
    sendChunks p tbl 0 res i f = (.engineTimeout, g) := by
  simp [sendChunks, sendFullChunks, someBits, packet]

/-- R130 steps 1 and 2, for inputs that do not fit. -/
theorem programChain_of_invalid {c len tableLen : Word}
    (invalid : 3 < c.toNat ∨ tableLen.toNat < (len.toNat + 31) / 32) :
    programChain p c len tableLen tbl f = (.invalidInput, f) := by
  by_cases chain : c > 3#32
  · exact if_pos chain
  · have short : tableLen < ceil32 len := by
      rw [BitVec.lt_def, ceil32_toNat]
      exact invalid.resolve_left chain
    exact (if_neg chain).trans (if_pos short)

/-- R130 steps 1 and 2, for inputs that fit: the chain is selected, and all the chunks are left. -/
theorem programChain_of_valid {c len tableLen : Word} (chain : c.toNat ≤ 3)
    (fits : (len.toNat + 31) / 32 ≤ tableLen.toNat) :
    programChain p c len tableLen tbl f =
      sendChunks p tbl (fullChunksOf len).toNat (residualOf len) 0 (f.write .en (BitVec.ofNat 32 (2 ^ c.toNat))) := by
  have chainFits : ¬c > 3#32 := Nat.not_lt.2 chain
  have tableFits : ¬tableLen < ceil32 len := by
    rw [BitVec.lt_def, ceil32_toNat]
    exact Nat.not_lt.2 fits
  rw [programChain, if_neg chainFits, if_neg tableFits, enableValue_eq_two_pow chain, sendChunks, Nat.zero_add]
  obtain ⟨sent, g⟩ := sendFullChunks p tbl (fullChunksOf len).toNat 0 (f.write .en (BitVec.ofNat 32 (2 ^ c.toNat)))
  cases sent with
  | false => rfl
  | true =>
    dsimp only
    obtain ⟨sent, h⟩ := sendPacket p tbl ((residualOf len).setWidth 8) (4 * (fullChunksOf len).toNat) g
    cases sent <;> rfl

end Algorithm

/-! ### States of a command on its way -/

/-- The block right after it has accepted the `PROGRAM_CHAIN` `r`; `rest` is still offered. -/
def State.afterProgramChain (s : State) (r : CmdRecord) (rest : List CmdRecord) : State :=
  { s with
    op := 1#1, chainId := r.chainId, len := r.lengthInBits, tableLen := r.tableLen, maxi := s.params.maxIter
    result := .none, phase := .validate, table := Memory.ofWords r.table, offers := rest }

/-- The block after `SELECT`. -/
def State.selected (s : State) : State := (s.writeEn (BitVec.ofNat 32 (2 ^ s.chainId.toNat))).goto .plan

/-- The block after `SELECT` and `PLAN`, with all the chunks left. -/
def State.planned (s : State) : State :=
  { s.selected with
    fullLeft := fullChunksOf s.len, res := residualOf s.len, idx := 0#32, phase := .nextChunk }

/-- The block right after `CHUNK` has started a full chunk. -/
def State.startFull (s : State) : State := { s with curL := 128#8, fullLeft := s.fullLeft - 1#32, phase := .monStart }

/-- The block right after `CHUNK` has started the residual chunk. -/
def State.startResidual (s : State) : State := { s with curL := s.res.setWidth 8, res := 0#7, phase := .monStart }

/-- The block after `HDR`. -/
def State.headerSent (s : State) : State :=
  { s.writeFifo .fifo2 ((header s.curL).setWidth 32) with
    wcnt := wordsOf s.curL, rem := remainderOf s.curL, phase := if wordsOf s.curL > 0#3 then .data else .remw }

/-- What a run changes neither between two chunks nor within one: the parameters, the offers and `EN`. -/
def State.outside (s : State) : Params × List CmdRecord × Word := (s.params, s.offers, s.en)

/-- The chunks not yet started (R12). -/
def State.chunksLeft (s : State) : Word × BitVec 7 := (s.fullLeft, s.res)

theorem outside_eq_iff {s t : State} :
    t.outside = s.outside ↔ t.params = s.params ∧ t.offers = s.offers ∧ t.en = s.en := by
  simp [State.outside]

theorem chunksLeft_eq_iff {s t : State} :
    t.chunksLeft = s.chunksLeft ↔ t.fullLeft = s.fullLeft ∧ t.res = s.res := by
  simp [State.chunksLeft]

end Sys2Proof.Machine

namespace Sys2Proof.Safety

open Sys2Proof.Machine

/-! ### Runs on which the block stays busy, joined up -/

theorem leadsBusy_zero (s : State) : LeadsBusy 0 s s :=
  ⟨leads_zero.2 rfl, fun _ _ inside => absurd inside (Nat.not_lt_zero _)⟩

theorem leadsBusy_succ_cases {k : Nat} {s t : State} (h : LeadsBusy (k + 1) s t) :
    ∃ u, s.phase ≠ .ready ∧ step s = .next u ∧ LeadsBusy k u t := by
  obtain ⟨run, busy⟩ := h
  obtain ⟨u, first, rest⟩ := leads_succ.1 run
  exact ⟨u, busy 0 s (Nat.succ_pos k) (leads_zero.2 rfl), first, rest, fun j v inside before =>
    busy (j + 1) v (Nat.succ_lt_succ inside) (leads_succ.2 ⟨u, first, before⟩)⟩

theorem leadsBusy_trans {k l : Nat} {s t u : State} (first : LeadsBusy k s t) (second : LeadsBusy l t u) :
    LeadsBusy (k + l) s u := by
  induction k generalizing s with
  | zero =>
    obtain ⟨run, -⟩ := first
    rwa [leads_zero.1 run, Nat.zero_add]
  | succ k ih =>
    obtain ⟨v, busy, next, rest⟩ := leadsBusy_succ_cases first
    rw [Nat.succ_add]
    exact leadsBusy_succ busy next (ih rest)

/-- What the steps of a command keep holds all along it. -/
theorem runOf_of_leadsBusy {tbl : Nat → Word} {r : CmdRecord} {base : List BusEvent} {k : Nat} {s t : State}
    (run : RunOf tbl r base s) (h : LeadsBusy k s t) : RunOf tbl r base t := by
  induction k generalizing s with
  | zero =>
    obtain ⟨same, -⟩ := h
    rwa [← leads_zero.1 same]
  | succ k ih =>
    obtain ⟨u, busy, next, rest⟩ := leadsBusy_succ_cases h
    exact ih (runOf_of_step run busy next) rest

/-- A command ends in one state only. -/
theorem commandEnds_unique {s t u : State} (one : CommandEnds s t) (other : CommandEnds s u) : t = u := by
  obtain ⟨k, pos, leads, ready, busy⟩ := one
  obtain ⟨l, pos', leads', ready', busy'⟩ := other
  obtain less | rfl | more := Nat.lt_trichotomy k l
  · exact absurd ready (busy' k t pos less leads)
  · exact leads_unique leads leads'
  · exact absurd ready' (busy l u pos' more leads')

/-! ### From the acceptance to the first chunk -/

section Start

variable {s : State}

theorem step_of_programChain_offer {r : CmdRecord} {rest : List CmdRecord} (own : Undisturbed s)
    (ready : s.phase = .ready) (offers : s.offers = r :: rest) (op : r.op = 1#1) :
    step s = .next (s.afterProgramChain r rest) := by
  obtain ⟨noReset, unplaced, -⟩ := own
  have notIsIdle : r.op ≠ 0#1 := by rw [op]; decide
  rw [step_of_offer noReset unplaced ready offers, decodeCmd, if_neg notIsIdle]
  exact exec_programChain_of_ready (s := { s with offers := rest }) _ _ _ _ ready

theorem busy_of_phase {p : Phase} (phase : s.phase = p) (busy : p ≠ .ready) : s.phase ≠ .ready :=
  phase ▸ busy

/-- The step of an undisturbed block in a known busy phase. -/
theorem step_in_phase {p : Phase} {i : Instr} (own : Undisturbed s) (phase : s.phase = p) (busy : p ≠ .ready)
    (decoded : decode (.seq p.code) = .ok i) : step s = exec i s :=
  step_of_undisturbed_busy own (busy_of_phase phase busy) (phase ▸ decoded)

/-- R131, R132, R133: a command with valid inputs selects its chain and cuts its length. -/
theorem validate_leads_planned (own : Undisturbed s) (phase : s.phase = .validate) (chain : s.chainId.toNat ≤ 3)
    (fits : (s.len.toNat + 31) / 32 ≤ s.tableLen.toNat) : LeadsBusy 3 s s.planned := by
  have valid : ¬(3 < s.chainId.toNat ∨ s.tableLen.toNat < (s.len.toNat + 31) / 32) := by omega
  have validates : step s = .next (s.goto .select) := by
    rw [step_in_phase own phase Phase.noConfusion decode_validate, exec_validate_eq, if_neg valid]
    rfl
  have selects : step (s.goto .select) = .next s.selected :=
    (step_in_phase (s := s.goto .select) own rfl Phase.noConfusion decode_select).trans (exec_select_of_chain chain)
  have plans : step s.selected = .next s.planned :=
    step_in_phase (s := s.selected) own rfl Phase.noConfusion decode_plan
  exact leadsBusy_succ (busy_of_phase phase Phase.noConfusion) validates
    (leadsBusy_succ Phase.noConfusion selects (leadsBusy_one Phase.noConfusion plans))

/-- R131: a command with invalid inputs is over. -/
theorem validate_leads_raise (own : Undisturbed s) (phase : s.phase = .validate)
    (invalid : 3 < s.chainId.toNat ∨ s.tableLen.toNat < (s.len.toNat + 31) / 32) :
    LeadsBusy 1 s (s.raise .invalidInput) := by
  refine leadsBusy_one (busy_of_phase phase Phase.noConfusion) ?_
  rw [step_in_phase own phase Phase.noConfusion decode_validate, exec_validate_eq, if_pos invalid]
  rfl

/-- R142: with no chunk left the command ends `OK`. -/
theorem nextChunk_leads_finish (own : Undisturbed s) (phase : s.phase = .nextChunk) (noFull : s.fullLeft.toNat = 0)
    (noResidual : s.res.toNat = 0) : LeadsBusy 1 s s.finish := by
  refine leadsBusy_one (busy_of_phase phase Phase.noConfusion) ?_
  rw [step_in_phase own phase Phase.noConfusion decode_nextChunk, exec_chunk_of_none_left noFull noResidual]

end Start

/-- Settles O58: no bit, so no word is needed and no chunk is left after `PLAN`. -/
theorem zeroLengthOnlySelectsTheChain : Obligations.ZeroLengthOnlySelectsTheChain := by
  intro s r ⟨own, ready, rest, offers⟩ op noBits chain
  let accepted := s.afterProgramChain r rest
  have len : accepted.len.toNat = 0 := by
    change r.lengthInBits.toNat = 0
    rw [noBits, BitVec.toNat_zero]
  have plan : LeadsBusy 3 accepted accepted.planned :=
    validate_leads_planned own rfl chain (by rw [len]; exact Nat.zero_le _)
  have noFull : accepted.planned.fullLeft.toNat = 0 := (fullChunksOf_toNat _).trans (by rw [len])
  have noResidual : accepted.planned.res.toNat = 0 := (residualOf_toNat _).trans (by rw [len])
  have finish := nextChunk_leads_finish (s := accepted.planned) own rfl noFull noResidual
  exact ⟨accepted.planned.finish, endsAfter_of_leadsBusy (step_of_programChain_offer own ready offers op)
    (leadsBusy_trans plan finish) rfl, rfl, rfl⟩

/-! ### The payload of a packet -/

/-- The block comes from `s`, busy all the way, to `t`, where the packet it was sending is done and its bus operations
have come to the flow `f`. -/
structure PacketDone (s : State) (f : Flow) (t : State) : Prop where
  leads : ∃ k, LeadsBusy k s t
  phase : t.phase = .nextChunk
  flow : t.flow = f
  outside : t.outside = s.outside
  chunksLeft : t.chunksLeft = s.chunksLeft

theorem packetDone_refl {s : State} (phase : s.phase = .nextChunk) : PacketDone s s.flow s :=
  ⟨⟨0, leadsBusy_zero s⟩, phase, rfl, rfl, rfl⟩

theorem packetDone_of_leads {k : Nat} {s u t : State} {f : Flow} (first : LeadsBusy k s u)
    (outside : u.outside = s.outside) (chunksLeft : u.chunksLeft = s.chunksLeft) (rest : PacketDone u f t) :
    PacketDone s f t := by
  obtain ⟨l, second⟩ := rest.leads
  exact ⟨⟨k + l, leadsBusy_trans first second⟩, rest.phase, rest.flow, rest.outside.trans outside,
    rest.chunksLeft.trans chunksLeft⟩

section Packet

variable {tbl : Nat → Word} {r : CmdRecord} {base : List BusEvent} {s : State}

/-- In `DATA` and `REMW` the word at `IDX` is there, and it is the table's. -/
theorem RunOf.tableWord_idx (run : RunOf tbl r base s) (phase : s.phase = .data ∨ s.phase = .remw) :
    s.idx.toNat < s.tableLen.toNat ∧ tableWord s.table s.idx.toNat = some (tbl s.idx.toNat) := by
  obtain ⟨-, latches⟩ := run.latch
  obtain ⟨w, read⟩ := tblRead_of_phaseInv latches phase
  obtain rfl := eq_of_tblRead run.table read
  exact tblRead_ok.1 read

/-- R141: `REMW` sends the remainder and ends the packet. -/
theorem remw_sends_remainder (run : RunOf tbl r base s) (phase : s.phase = .remw) :
    ∃ t, PacketDone s (sendRemainder s.params.padPolicy s.rem (tbl s.idx.toNat) s.flow) t := by
  obtain ⟨-, latches⟩ := run.latch
  obtain ⟨-, -, someRem, -⟩ := (phaseInv_remw phase).1 latches
  obtain ⟨inside, word⟩ := run.tableWord_idx (.inr phase)
  have sends := (step_in_phase run.undisturbed phase Phase.noConfusion decode_remw).trans
    (exec_remw_of_word inside word)
  have done := packetDone_of_leads (leadsBusy_one (busy_of_phase phase Phase.noConfusion) sends) rfl rfl
    (packetDone_refl rfl)
  rw [sendRemainder_of_ne _ _ someRem]
  exact ⟨_, done⟩

/-- R139: `DATAW` sends the word at `IDX`, and goes on to the next word, to the remainder, or to the next chunk. -/
theorem dataw_sends_word (run : RunOf tbl r base s) (phase : s.phase = .data) :
    ∃ u, step s = .next u ∧ u.flow = s.flow.write .fifo4 (tbl s.idx.toNat) ∧ u.idx.toNat = s.idx.toNat + 1 ∧
      u.wcnt.toNat = s.wcnt.toNat - 1 ∧ u.rem = s.rem ∧ u.outside = s.outside ∧ u.chunksLeft = s.chunksLeft ∧
      ((u.phase = .data ∨ u.phase = .remw) ∨ (u.phase = .nextChunk ∧ u.wcnt = 0#3 ∧ u.rem = 0#5)) := by
  obtain ⟨-, latches⟩ := run.latch
  obtain ⟨-, pos, -, account, -⟩ := (phaseInv_data phase).1 latches
  obtain ⟨inside, word⟩ := run.tableWord_idx (.inl phase)
  have sends := (step_in_phase run.undisturbed phase Phase.noConfusion decode_data).trans
    (exec_dataw_of_word inside word)
  refine ⟨_, sends, rfl, idx_succ_toNat (by omega), decWcnt_toNat pos, rfl, rfl, rfl, ?_⟩
  dsimp only
  split_ifs with words remainder
  · exact .inl (.inl rfl)
  · exact .inl (.inr rfl)
  · exact .inr ⟨rfl, not_not.1 words, not_not.1 remainder⟩

/-- R139, R141: from `DATA` or `REMW` on the block sends the words that `WCNT` counts and then the remainder. -/
theorem payload_sends_words (n : Nat) (run : RunOf tbl r base s) (phase : s.phase = .data ∨ s.phase = .remw)
    (words : s.wcnt.toNat = n) :
    ∃ t, PacketDone s
      (sendRemainder s.params.padPolicy s.rem (tbl (s.idx.toNat + n)) (sendWords tbl n s.idx.toNat s.flow)) t := by
  obtain ⟨-, latches⟩ := run.latch
  induction n generalizing s with
  | zero =>
    obtain data | remw := phase
    · obtain ⟨-, pos, -⟩ := (phaseInv_data data).1 latches
      omega
    · exact remw_sends_remainder run remw
  | succ n ih =>
    have data : s.phase = .data := phase.resolve_right fun remw => by
      obtain ⟨-, noWords, -⟩ := (phaseInv_remw remw).1 latches
      rw [noWords] at words
      cases words
    obtain ⟨u, sends, flow, idx, wcnt, rem, outside, chunksLeft, next⟩ := dataw_sends_word run data
    have first := leadsBusy_one (busy_of_phase data Phase.noConfusion) sends
    have left : u.wcnt.toNat = n := by rw [wcnt, words, Nat.add_sub_cancel]
    obtain ⟨params, -⟩ := outside_eq_iff.1 outside
    rw [sendWords, ← flow, Nat.add_comm n, ← Nat.add_assoc, ← idx, ← rem, ← params]
    obtain more | ⟨done, noWords, noRem⟩ := next
    · have run' := runOf_of_step run (busy_of_phase data Phase.noConfusion) sends
      obtain ⟨-, latches'⟩ := run'.latch
      obtain ⟨t, rest⟩ := ih run' more left latches'
      exact ⟨t, packetDone_of_leads first outside chunksLeft rest⟩
    · rw [noWords] at left
      cases left
      rw [noRem, sendRemainder_zero]
      exact ⟨u, packetDone_of_leads first outside chunksLeft (packetDone_refl done)⟩

/-- R138: `HDR` opens the packet, and its payload follows. -/
theorem hdr_sends_packet (run : RunOf tbl r base s) (phase : s.phase = .hdr) :
    ∃ t, PacketDone s (sendPayload s.params tbl s.curL s.idx.toNat s.flow) t := by
  have opens : step s = .next s.headerSent := step_in_phase run.undisturbed phase Phase.noConfusion decode_hdr
  have first := leadsBusy_one (busy_of_phase phase Phase.noConfusion) opens
  obtain ⟨t, rest⟩ := payload_sends_words _ (runOf_of_leadsBusy run first) (ite_eq_or_eq ..) rfl
  exact ⟨t, packetDone_of_leads first rfl rfl rest⟩

/-! ### A packet, with the idle check before it -/

/-- R130, R131: after `VALIDATE` a command's budget is `MAX_ITER`. -/
theorem RunOf.maxi_monStart (run : RunOf tbl r base s) (phase : s.phase = .monStart) : s.maxi = s.params.maxIter := by
  obtain ⟨-, latches⟩ := run.latch
  obtain isIdle | ⟨⟨-, -, -, -, maxi⟩, -⟩ := (phaseInv_monStart phase).1 latches
  · rw [run.op] at isIdle
    cases isIdle
  · exact maxi

theorem RunOf.op_ne (run : RunOf tbl r base s) : s.op ≠ 0#1 := by
  rw [run.op]
  decide

variable {g : Flow}

/-- A started chunk whose check ends `IDLE` is sent. -/
theorem monStart_sends_packet (run : RunOf tbl r base s) (phase : s.phase = .monStart)
    (packet : sendPacket s.params tbl s.curL s.idx.toNat s.flow = (true, g)) : ∃ t, PacketDone s g t := by
  obtain ⟨k, left, -, checks⟩ := monStart_leads_afterCheck run.undisturbed phase
  obtain ⟨f, idle, rfl⟩ := sendPacket_eq_true.1 packet
  rw [run.maxi_monStart phase, idle, afterCheck_idle f left run.op_ne] at checks
  obtain ⟨t, rest⟩ := hdr_sends_packet (runOf_of_leadsBusy run checks) rfl
  exact ⟨t, packetDone_of_leads checks rfl rfl rest⟩

/-- The block comes from `s`, busy all the way, to the end `t` of the command, as the algorithm answers with `o`. -/
structure EndsWith (s : State) (o : ResultCode × Flow) (t : State) : Prop where
  leads : ∃ k, LeadsBusy k s t
  phase : t.phase = .ready
  answer : (t.result, t.flow) = o
  outside : t.outside = s.outside

theorem endsWith_of_leads {k : Nat} {s u t : State} {o : ResultCode × Flow} (first : LeadsBusy k s u)
    (outside : u.outside = s.outside) (rest : EndsWith u o t) : EndsWith s o t := by
  obtain ⟨l, second⟩ := rest.leads
  exact ⟨⟨k + l, leadsBusy_trans first second⟩, rest.phase, rest.answer, rest.outside.trans outside⟩

/-- R137: a started chunk whose check ends `ACTIVE` ends the command. -/
theorem monStart_times_out (run : RunOf tbl r base s) (phase : s.phase = .monStart)
    (packet : sendPacket s.params tbl s.curL s.idx.toNat s.flow = (false, g)) :
    ∃ t, EndsWith s (.engineTimeout, g) t := by
  obtain ⟨k, left, -, checks⟩ := monStart_leads_afterCheck run.undisturbed phase
  rw [run.maxi_monStart phase, sendPacket_eq_false.1 packet, afterCheck_active g left run.op_ne] at checks
  exact ⟨_, ⟨k, checks⟩, rfl, rfl, rfl⟩

/-! ### The chunks, one after the other -/

/-- R142: with no chunk left the algorithm is done. -/
theorem nextChunk_ends_ok (run : RunOf tbl r base s) (phase : s.phase = .nextChunk) (noFull : s.fullLeft.toNat = 0)
    (noResidual : s.res.toNat = 0) : EndsWith s (.ok, s.flow) s.finish :=
  ⟨⟨1, nextChunk_leads_finish run.undisturbed phase noFull noResidual⟩, rfl, rfl, rfl⟩

theorem nextChunk_leads_startFull (run : RunOf tbl r base s) (phase : s.phase = .nextChunk)
    (full : 0 < s.fullLeft.toNat) : LeadsBusy 1 s s.startFull :=
  leadsBusy_one (busy_of_phase phase Phase.noConfusion)
    ((step_in_phase run.undisturbed phase Phase.noConfusion decode_nextChunk).trans (exec_chunk_of_full full))

theorem nextChunk_leads_startResidual (run : RunOf tbl r base s) (phase : s.phase = .nextChunk)
    (noFull : s.fullLeft.toNat = 0) (residual : 0 < s.res.toNat) : LeadsBusy 1 s s.startResidual :=
  leadsBusy_one (busy_of_phase phase Phase.noConfusion)
    ((step_in_phase run.undisturbed phase Phase.noConfusion decode_nextChunk).trans
      (exec_chunk_of_residual noFull residual))

/-- R148: a full chunk uses four words of the table. -/
theorem idx_of_full_chunk {u : State} (run : RunOf tbl r base s) (phase : s.phase = .nextChunk)
    (run' : RunOf tbl r base u) (phase' : u.phase = .nextChunk) (bits : bitsLeft s = bitsLeft u + 128) :
    u.idx.toNat = s.idx.toNat + 4 := by
  obtain ⟨-, latches⟩ := run.latch
  obtain ⟨-, between⟩ := (phaseInv_nextChunk phase).1 latches
  obtain ⟨-, account⟩ := account_of_bitsLeft between (by omega)
  obtain ⟨-, latches'⟩ := run'.latch
  obtain ⟨-, ⟨-, account'⟩ | ⟨noBits, allUsed⟩⟩ := (phaseInv_nextChunk phase').1 latches'
  · rw [run'.len] at account'
    rw [run.len] at account
    omega
  · rw [allUsed, ceil32_toNat, run'.len]
    rw [run.len] at account
    omega

/-- A full chunk whose check ends `IDLE` leads to the next chunk, four words on. -/
theorem nextChunk_sends_full (run : RunOf tbl r base s) (phase : s.phase = .nextChunk) (full : 0 < s.fullLeft.toNat)
    (packet : sendPacket s.params tbl 128#8 s.idx.toNat s.flow = (true, g)) :
    ∃ k u, LeadsBusy k s u ∧ u.phase = .nextChunk ∧ u.flow = g ∧ u.outside = s.outside ∧
      u.fullLeft.toNat = s.fullLeft.toNat - 1 ∧ u.res = s.res ∧ u.idx.toNat = s.idx.toNat + 4 := by
  have starts := nextChunk_leads_startFull run phase full
  obtain ⟨u, done⟩ := monStart_sends_packet (runOf_of_leadsBusy run starts) rfl packet
  obtain ⟨k, sends⟩ := done.leads
  have leads := leadsBusy_trans starts sends
  obtain ⟨fullLeft, res⟩ : u.fullLeft = s.fullLeft - 1#32 ∧ u.res = s.res := chunksLeft_eq_iff.1 done.chunksLeft
  have left : u.fullLeft.toNat = s.fullLeft.toNat - 1 := by rw [fullLeft, pred_toNat full]
  have bits : bitsLeft s = bitsLeft u + 128 := by
    rw [bitsLeft, bitsLeft, left, res]
    omega
  exact ⟨_, u, leads, done.phase, done.flow, done.outside, left, res,
    idx_of_full_chunk run phase (runOf_of_leadsBusy run leads) done.phase bits⟩

/-- R135: the residual chunk is the last one. -/
theorem nextChunk_runs_residual (run : RunOf tbl r base s) (phase : s.phase = .nextChunk)
    (noFull : s.fullLeft.toNat = 0) (residual : 0 < s.res.toNat) :
    ∃ t, EndsWith s (sendChunks s.params tbl 0 s.res s.idx.toNat s.flow) t := by
  have someBits : s.res ≠ 0#7 := fun noBits => by
    rw [noBits] at residual
    cases residual
  have starts := nextChunk_leads_startResidual run phase noFull residual
  have run' := runOf_of_leadsBusy run starts
  cases packet : sendPacket s.params tbl (s.res.setWidth 8) s.idx.toNat s.flow with | mk sent g
  cases sent with
  | false =>
    obtain ⟨t, ends⟩ := monStart_times_out run' rfl packet
    rw [sendChunks_residual_timedOut someBits packet]
    exact ⟨t, endsWith_of_leads starts rfl ends⟩
  | true =>
    obtain ⟨u, done⟩ := monStart_sends_packet run' rfl packet
    obtain ⟨k, sends⟩ := done.leads
    obtain ⟨fullLeft, res⟩ : u.fullLeft = s.fullLeft ∧ u.res = 0#7 := chunksLeft_eq_iff.1 done.chunksLeft
    have ends := nextChunk_ends_ok (runOf_of_leadsBusy run' sends) done.phase (by rw [fullLeft, noFull])
      (by rw [res]; rfl)
    rw [done.flow] at ends
    rw [sendChunks_residual_sent someBits packet]
    exact ⟨_, endsWith_of_leads starts rfl (endsWith_of_leads sends done.outside ends)⟩

/-- R130 from step 3 on, R135: from between two chunks the block runs what is left of the algorithm. -/
theorem nextChunk_runs_algorithm (n : Nat) (run : RunOf tbl r base s) (phase : s.phase = .nextChunk)
    (full : s.fullLeft.toNat = n) : ∃ t, EndsWith s (sendChunks s.params tbl n s.res s.idx.toNat s.flow) t := by
  induction n generalizing s with
  | zero =>
    obtain noResidual | residual := Nat.eq_zero_or_pos s.res.toNat
    · have noBits : s.res = 0#7 := BitVec.eq_of_toNat_eq noResidual
      rw [noBits, sendChunks_none_left]
      exact ⟨_, nextChunk_ends_ok run phase full noResidual⟩
    · exact nextChunk_runs_residual run phase full residual
  | succ n ih =>
    have pos : 0 < s.fullLeft.toNat := by omega
    cases packet : sendPacket s.params tbl 128#8 s.idx.toNat s.flow with | mk sent g
    cases sent with
    | false =>
      have starts := nextChunk_leads_startFull run phase pos
      obtain ⟨t, ends⟩ := monStart_times_out (runOf_of_leadsBusy run starts) rfl packet
      rw [sendChunks_full_timedOut n packet]
      exact ⟨t, endsWith_of_leads starts rfl ends⟩
    | true =>
      obtain ⟨k, u, leads, phase', flow, outside, left, res, idx⟩ := nextChunk_sends_full run phase pos packet
      obtain ⟨params, -⟩ := outside_eq_iff.1 outside
      obtain ⟨t, ends⟩ := ih (runOf_of_leadsBusy run leads) phase' (by rw [left, full, Nat.add_sub_cancel])
      rw [params, res, idx, flow, ← sendChunks_full_sent n packet] at ends
      exact ⟨t, endsWith_of_leads leads outside ends⟩

end Packet

/-! ### A whole command -/

/-- Settles O51: the acceptance, then `VALIDATE` alone, or `VALIDATE`, `SELECT`, `PLAN` and all the chunks. -/
theorem programChainAgreesWithTheAlgorithm : Obligations.ProgramChainAgreesWithTheAlgorithm := by
  intro s r tbl offered op wellFormed table
  obtain ⟨own, ready, rest, offers⟩ := offered
  have accepts := step_of_programChain_offer own ready offers op
  have taken : rest = s.offers.tail := by rw [offers, List.tail_cons]
  by_cases invalid : 3 < r.chainId.toNat ∨ r.tableLen.toNat < (r.lengthInBits.toNat + 31) / 32
  · have raises : LeadsBusy 1 (s.afterProgramChain r rest) _ := validate_leads_raise own rfl invalid
    rw [programChain_of_invalid invalid, if_pos invalid]
    exact ⟨_, ⟨2, endsAfter_of_leadsBusy accepts raises rfl⟩, rfl, taken, rfl⟩
  · obtain ⟨chain, fits⟩ := not_or.1 invalid
    rw [Nat.not_lt] at chain fits
    have plans : LeadsBusy 3 (s.afterProgramChain r rest) _ := validate_leads_planned own rfl chain fits
    have run := runOf_of_accepted ⟨own, ready, rest, offers⟩ op wellFormed table accepts
    obtain ⟨t, ends⟩ := nextChunk_runs_algorithm _ (runOf_of_leadsBusy run plans) rfl rfl
    obtain ⟨k, chunks⟩ := ends.leads
    rw [programChain_of_valid chain fits, if_neg invalid]
    obtain ⟨-, sameOffers, en⟩ := outside_eq_iff.1 ends.outside
    exact ⟨t, ⟨_, endsAfter_of_leadsBusy accepts (leadsBusy_trans plans chunks) ends.phase⟩, ends.answer,
      sameOffers.trans taken, en⟩

end Sys2Proof.Safety
end

section
/-! Proofs about the bus operations of a command that ends `OK`: its packets and its operation counts
(42_chain_programmer.md R136, R146, R147, R149). The machine agrees with the algorithm, so what a reader of the trace
finds is read off the algorithm: one write of `EN` and then, chunk by chunk, status reads, a header and the payload. -/

namespace Sys2Proof.Machine

/-! ### The bus operations of a chunk -/

/-- A write of one of the three FIFO ports. -/
def IsPortWrite (e : BusEvent) : Prop :=
  ∃ port v, (port = Reg.fifo1 ∨ port = Reg.fifo2 ∨ port = Reg.fifo4) ∧ e = ⟨.write, port.offset, v⟩

/-- Writes of the FIFO ports only: how many, and how many bytes they enqueue. -/
structure PortWrites (es : List BusEvent) (writes bytes : Nat) : Prop where
  onlyPorts : ∀ e ∈ es, IsPortWrite e
  length : es.length = writes
  bytes : (fifoBytes es).length = bytes

theorem portWrites_nil : PortWrites [] 0 0 := ⟨fun _ mem => absurd mem List.not_mem_nil, rfl, rfl⟩

theorem portWrites_append {es fs : List BusEvent} {m n a b : Nat} (first : PortWrites es m a)
    (second : PortWrites fs n b) : PortWrites (es ++ fs) (m + n) (a + b) where
  onlyPorts e mem := (List.mem_append.1 mem).elim (first.onlyPorts e) (second.onlyPorts e)
  length := by rw [List.length_append, first.length, second.length]
  bytes := by rw [fifoBytes, List.flatMap_append, List.length_append, ← first.bytes, ← second.bytes]; rfl

/-- R55: a write of a port enqueues the bytes that the port is wide. -/
theorem length_bytes_write (port : Reg) (v : Word) :
    (⟨.write, port.offset, v⟩ : BusEvent).bytes.length = port.portWidth / 8 := by
  have bits := congrArg List.length (flatMap_byteBits_bytes port v)
  rw [length_flatMap_byteBits, List.length_map, List.length_range] at bits
  omega

theorem portWrites_singleton {port : Reg} (v : Word) (isPort : port = .fifo1 ∨ port = .fifo2 ∨ port = .fifo4) :
    PortWrites [⟨.write, port.offset, v⟩] 1 (port.portWidth / 8) where
  onlyPorts e mem := ⟨port, v, isPort, List.mem_singleton.1 mem⟩
  length := rfl
  bytes := by rw [fifoBytes, List.flatMap_singleton, length_bytes_write]

/-- How many port writes the payload of a chunk of `n` bits takes: its whole words, and one more for a remainder
(R136). -/
def payloadWrites (n : Nat) : Nat := n / 32 + (if n % 32 = 0 then 0 else 1)

/-- The status reads, the header value and the payload writes of a chunk of `n` bits under the budget `m`. -/
structure IsChunk (m n : Nat) (reads : List BusEvent) (v : Word) (payload : List BusEvent) : Prop where
  onlyReads : ∀ e ∈ reads, e.isRead = true
  someReads : 1 ≤ reads.length
  withinBudget : reads.length ≤ m
  headerLength : (v.extractLsb' 8 7).toNat + 1 = n
  payload : PortWrites payload (payloadWrites n) (payloadBytes n)

/-- The bus operations of chunks of the given lengths, one chunk after the other, under the budget `m`. -/
inductive ChunkEvents (m : Nat) : List Nat → List BusEvent → Prop
  | none : ChunkEvents m [] []
  | chunk {n : Nat} {ns : List Nat} {reads payload rest : List BusEvent} {v : Word} :
      IsChunk m n reads v payload → ChunkEvents m ns rest →
        ChunkEvents m (n :: ns) (reads ++ ⟨.write, Reg.fifo2.offset, v⟩ :: payload ++ rest)

/-- The lengths of the chunks of a command: the full ones, then the residual one (R135). -/
def chunkLengths (full res : Nat) : List Nat := List.replicate full 128 ++ (if res = 0 then [] else [res])

theorem chunkLengths_succ (full res : Nat) : chunkLengths (full + 1) res = 128 :: chunkLengths full res := rfl

theorem chunkLengths_sum (full res : Nat) : (chunkLengths full res).sum = 128 * full + res := by
  rw [chunkLengths, List.sum_append, List.sum_replicate, smul_eq_mul, Nat.mul_comm]
  split_ifs with noRes
  · rw [noRes, List.sum_nil]
  · rw [List.sum_singleton]

theorem chunkLengths_length (n : Nat) : (chunkLengths (n / 128) (n % 128)).length = Safety.chunkCount n := by
  rw [chunkLengths, Safety.chunkCount, List.length_append, List.length_replicate]
  split_ifs <;> rfl

/-- R147: a chunk has 1 to 128 bits. -/
theorem mem_chunkLengths {full res n : Nat} (small : res < 128) (mem : n ∈ chunkLengths full res) :
    1 ≤ n ∧ n ≤ 128 := by
  obtain whole | residual := List.mem_append.1 mem
  · rw [List.eq_of_mem_replicate whole]
    decide
  · split_ifs at residual with noRes
    · cases residual
    · rw [List.mem_singleton.1 residual]
      omega

/-! ### The algorithm's bus operations -/

section Algorithm

variable {p : Params} {tbl : Nat → Word} {curL : BitVec 8} {res : BitVec 7} {i : Nat} {f g : Flow}

/-- R118: a check that ends `IDLE` has made at least one read, and at most its budget. -/
theorem idleCheck_idle_reads {m : Nat} (idle : idleCheck m f = (.idle, g)) :
    ∃ n, 1 ≤ n ∧ n ≤ m ∧ g = f.afterReads n := by
  cases m with
  | zero => cases idle
  | succ m =>
    cases first : busy (f.answer 0) with
    | false =>
      rw [idleCheck_succ_of_idle m first] at idle
      cases idle
      exact ⟨1, Nat.le_refl 1, Nat.succ_pos m, f.afterReads_one.symm⟩
    | true =>
      obtain ⟨n, within, reads⟩ := idleCheck_eq_afterReads m f.read.2
      rw [idleCheck_succ_of_busy m first] at idle
      rw [idle, Flow.afterReads_read] at reads
      exact ⟨n + 1, Nat.succ_pos n, Nat.succ_le_succ within, reads⟩

/-- R81, R139: each word is one write of four bytes. -/
theorem sendWords_events (n : Nat) :
    ∃ es, (sendWords tbl n i f).trace = f.trace ++ es ∧ PortWrites es n (4 * n) := by
  induction n generalizing i f with
  | zero => exact ⟨[], (List.append_nil _).symm, portWrites_nil⟩
  | succ n ih =>
    obtain ⟨es, trace, writes⟩ := ih (i := i + 1) (f := f.write .fifo4 (tbl i))
    have all := portWrites_append (portWrites_singleton (port := .fifo4) (tbl i) (.inr (.inr rfl))) writes
    have count : 1 + n = n + 1 := Nat.add_comm 1 n
    have size : Reg.fifo4.portWidth / 8 + 4 * n = 4 * (n + 1) := Nat.add_comm 4 (4 * n)
    rw [count, size] at all
    exact ⟨_, trace.trans (List.append_assoc ..), all⟩

/-- R86: the bytes of a remainder's port. -/
theorem remainderPort_bytes {n : BitVec 5} (pos : 1 ≤ n.toNat) :
    (remainderPort n).portWidth / 8 = if n.toNat ≤ 8 then 1 else if n.toNat ≤ 16 then 2 else 4 := by
  rw [remainderPortIsTheNarrowest n pos]
  split_ifs <;> rfl

theorem remainderPort_isPort (n : BitVec 5) :
    remainderPort n = .fifo1 ∨ remainderPort n = .fifo2 ∨ remainderPort n = .fifo4 := by
  unfold remainderPort
  split_ifs <;> simp

/-- R81, R141: the remainder, if there is one, is one write. -/
theorem sendRemainder_events (policy : PadPolicy) (n : BitVec 5) (w : Word) :
    ∃ es, (sendRemainder policy n w f).trace = f.trace ++ es ∧
      PortWrites es (if n.toNat = 0 then 0 else 1)
        (if n.toNat = 0 then 0 else if n.toNat ≤ 8 then 1 else if n.toNat ≤ 16 then 2 else 4) := by
  by_cases noBits : n = 0#5
  · rw [noBits]
    exact ⟨[], (List.append_nil _).symm, portWrites_nil⟩
  · have pos := one_le_toNat noBits
    have someBits := Nat.one_le_iff_ne_zero.1 pos
    rw [sendRemainder_of_ne w f noBits, if_neg someBits, if_neg someBits, ← remainderPort_bytes pos]
    exact ⟨_, rfl, portWrites_singleton _ (remainderPort_isPort n)⟩

/-- R136, R138 to R141: after its check a packet is its header and the writes of its payload. -/
theorem sendPayload_events (p : Params) (tbl : Nat → Word) (curL : BitVec 8) (i : Nat) (f : Flow) :
    ∃ payload, (sendPayload p tbl curL i f).trace =
        f.trace ++ ⟨.write, Reg.fifo2.offset, (header curL).setWidth 32⟩ :: payload ∧
      PortWrites payload (payloadWrites curL.toNat) (payloadBytes curL.toNat) := by
  obtain ⟨words, trace, someWords⟩ := sendWords_events (tbl := tbl) (i := i)
    (f := f.write .fifo2 ((header curL).setWidth 32)) (wordsOf curL).toNat
  obtain ⟨rest, trace', remainder⟩ := sendRemainder_events
    (f := sendWords tbl (wordsOf curL).toNat i (f.write .fifo2 ((header curL).setWidth 32)))
    p.padPolicy (remainderOf curL) (tbl (i + (wordsOf curL).toNat))
  have payload := portWrites_append someWords remainder
  rw [wordsOf_toNat, remainderOf_toNat] at payload
  refine ⟨words ++ rest, ?_, payload⟩
  rw [sendPayload, trace', trace]
  simp [Flow.write]

/-- A chunk of the algorithm that is sent. -/
theorem sendPacket_events (pos : 1 ≤ curL.toNat) (le : curL.toNat ≤ 128)
    (packet : sendPacket p tbl curL i f = (true, g)) :
    ∃ reads v payload, g.trace = f.trace ++ (reads ++ ⟨.write, Reg.fifo2.offset, v⟩ :: payload) ∧
      IsChunk p.maxIter.toNat curL.toNat reads v payload := by
  obtain ⟨h, idle, rfl⟩ := sendPacket_eq_true.1 packet
  obtain ⟨n, someReads, within, rfl⟩ := idleCheck_idle_reads idle
  obtain ⟨payload, trace, writes⟩ := sendPayload_events p tbl curL i (f.afterReads n)
  refine ⟨_, _, payload, trace.trans (List.append_assoc ..), ?_⟩
  exact
    { onlyReads := fun e mem => by
        obtain ⟨j, -, rfl⟩ := List.mem_map.1 mem
        rfl
      someReads := by simpa using someReads
      withinBudget := by simpa using within
      headerLength := header_length pos le
      payload := writes }

/-- R130, R135: the chunks that the algorithm sends when it ends `OK`. -/
theorem sendChunks_ok_events (n : Nat) (ok : sendChunks p tbl n res i f = (.ok, g)) :
    ∃ ev, g.trace = f.trace ++ ev ∧ ChunkEvents p.maxIter.toNat (chunkLengths n res.toNat) ev := by
  induction n generalizing i f with
  | zero =>
    by_cases noBits : res = 0#7
    · subst noBits
      cases ok
      exact ⟨[], (List.append_nil _).symm, .none⟩
    · have someBits := Nat.one_le_iff_ne_zero.1 (one_le_toNat noBits)
      have curL : (res.setWidth 8).toNat = res.toNat := BitVec.toNat_setWidth_of_le (by decide)
      cases packet : sendPacket p tbl (res.setWidth 8) i f with | mk sent h
      cases sent with
      | false =>
        rw [sendChunks_residual_timedOut noBits packet] at ok
        cases ok
      | true =>
        rw [sendChunks_residual_sent noBits packet] at ok
        cases ok
        obtain ⟨reads, v, payload, trace, chunk⟩ := sendPacket_events (by omega) (by omega) packet
        rw [curL] at chunk
        have lengths : chunkLengths 0 res.toNat = [res.toNat] := if_neg someBits
        rw [lengths]
        exact ⟨_, trace.trans (congrArg _ (List.append_nil _).symm), .chunk chunk .none⟩
  | succ n ih =>
    cases packet : sendPacket p tbl 128#8 i f with | mk sent h
    cases sent with
    | false =>
      rw [sendChunks_full_timedOut n packet] at ok
      cases ok
    | true =>
      rw [sendChunks_full_sent n packet] at ok
      obtain ⟨reads, v, payload, trace, chunk⟩ := sendPacket_events (by decide) (by decide) packet
      obtain ⟨rest, trace', chunks⟩ := ih ok
      rw [trace, List.append_assoc] at trace'
      rw [chunkLengths_succ]
      exact ⟨_, trace', .chunk chunk chunks⟩

end Algorithm

/-! ### What a reader finds in the chunks: packets (R56, R104) -/

/-- After the status reads a header is awaited. -/
theorem foldl_next_reads {reads : List BusEvent} (onlyReads : ∀ e ∈ reads, e.isRead = true)
    (someReads : 1 ≤ reads.length) (p : PacketScan) : reads.foldl PacketScan.next p = { p with fresh := true } := by
  induction reads generalizing p with
  | nil => cases someReads
  | cons e es ih =>
    have first : p.next e = { p with fresh := true } := if_pos (onlyReads e List.mem_cons_self)
    rw [List.foldl_cons, first]
    cases es with
    | nil => rfl
    | cons e' es => exact ih (fun e mem => onlyReads e (List.mem_cons_of_mem _ mem)) (Nat.succ_pos _) _

/-- The payload writes go to the open packet. -/
theorem foldl_next_payload {payload : List BusEvent} (onlyPorts : ∀ e ∈ payload, IsPortWrite e)
    (closed : List Packet) (q : Packet) :
    payload.foldl PacketScan.next ⟨closed, false, some q⟩ =
      ⟨closed, false, some { q with payload := q.payload ++ fifoBytes payload }⟩ := by
  induction payload generalizing q with
  | nil =>
    rw [List.foldl_nil, fifoBytes, List.flatMap_nil, List.append_nil]
  | cons e es ih =>
    obtain ⟨port, v, -, rfl⟩ := onlyPorts e List.mem_cons_self
    rw [List.foldl_cons, PacketScan.next_payload, ih fun e mem => onlyPorts e (List.mem_cons_of_mem _ mem)]
    simp only [fifoBytes, List.flatMap_cons, List.append_assoc]

/-- A chunk closes what was open, and leaves its own packet as the one being filled. -/
theorem foldl_next_chunk {m n : Nat} {reads payload : List BusEvent} {v : Word} (chunk : IsChunk m n reads v payload)
    (p : PacketScan) :
    (reads ++ ⟨.write, Reg.fifo2.offset, v⟩ :: payload).foldl PacketScan.next p =
      ⟨p.packets, false, some ⟨n, fifoBytes payload⟩⟩ := by
  rw [List.foldl_append, foldl_next_reads chunk.onlyReads chunk.someReads, List.foldl_cons,
    PacketScan.next_header rfl, foldl_next_payload chunk.payload.onlyPorts, chunk.headerLength]
  rfl

/-- R146, R147: each chunk is one packet of its length, with the payload bytes of that length. -/
theorem packets_of_chunkEvents {m : Nat} {ns : List Nat} {ev : List BusEvent} (chunks : ChunkEvents m ns ev)
    (p : PacketScan) :
    ∃ ps : List Packet, (ev.foldl PacketScan.next p).packets = p.packets ++ ps ∧ ps.map Packet.bits = ns ∧
      ∀ q ∈ ps, q.payload.length = payloadBytes q.bits := by
  induction chunks generalizing p with
  | none => exact ⟨[], (List.append_nil _).symm, rfl, fun _ mem => absurd mem List.not_mem_nil⟩
  | @chunk n ns reads payload rest v chunk _ ih =>
    obtain ⟨ps, scanned, bits, bytes⟩ := ih ⟨p.packets, false, some ⟨n, fifoBytes payload⟩⟩
    refine ⟨⟨n, fifoBytes payload⟩ :: ps, ?_, ?_, ?_⟩
    · rw [List.foldl_append, foldl_next_chunk chunk, scanned, PacketScan.packets, Option.toList_some,
        List.append_assoc, List.singleton_append]
    · rw [List.map_cons, bits]
    · exact List.forall_mem_cons.2 ⟨chunk.payload.bytes, bytes⟩

/-! ### What a reader counts in the chunks (R149) -/

/-- How many of the bus operations are writes of the FIFO ports. -/
def fifoWrites (t : List BusEvent) : Nat := countWrites .fifo1 t + countWrites .fifo2 t + countWrites .fifo4 t

theorem countWrites_append (r : Reg) (t u : List BusEvent) :
    countWrites r (t ++ u) = countWrites r t + countWrites r u :=
  List.countP_append

theorem countReads_append (t u : List BusEvent) : countReads (t ++ u) = countReads t + countReads u :=
  List.countP_append

theorem fifoWrites_append (t u : List BusEvent) : fifoWrites (t ++ u) = fifoWrites t + fifoWrites u := by
  simp only [fifoWrites, countWrites_append]
  omega

/-- The three counts of a list of bus operations: `EN` writes, status reads and FIFO writes. -/
def opCounts (t : List BusEvent) : Nat × Nat × Nat := (countWrites .en t, countReads t, fifoWrites t)

theorem opCounts_append (t u : List BusEvent) : opCounts (t ++ u) = opCounts t + opCounts u := by
  simp only [opCounts, countWrites_append, countReads_append, fifoWrites_append]
  rfl

theorem opCounts_reads {reads : List BusEvent} (onlyReads : ∀ e ∈ reads, e.isRead = true) :
    opCounts reads = (0, reads.length, 0) := by
  induction reads with
  | nil => rfl
  | cons e es ih =>
    have one : opCounts [e] = (0, 1, 0) := by
      obtain ⟨dir, offset, v⟩ := e
      cases dir with
      | read => rfl
      | write => exact absurd (onlyReads _ List.mem_cons_self) Bool.noConfusion
    rw [← List.singleton_append, opCounts_append, one, ih fun e mem => onlyReads e (List.mem_cons_of_mem _ mem)]
    simp [Nat.add_comm]

theorem opCounts_payload {payload : List BusEvent} (onlyPorts : ∀ e ∈ payload, IsPortWrite e) :
    opCounts payload = (0, 0, payload.length) := by
  induction payload with
  | nil => rfl
  | cons e es ih =>
    obtain ⟨port, v, isPort, rfl⟩ := onlyPorts e List.mem_cons_self
    have one : opCounts [⟨.write, port.offset, v⟩] = (0, 0, 1) := by
      rcases isPort with rfl | rfl | rfl <;> rfl
    rw [← List.singleton_append, opCounts_append, one, ih fun e mem => onlyPorts e (List.mem_cons_of_mem _ mem)]
    simp [Nat.add_comm]

/-- How many FIFO writes a chunk of `n` bits takes: its header and its payload (R136). -/
def chunkWrites (n : Nat) : Nat := 1 + payloadWrites n

theorem opCounts_chunk {m n : Nat} {reads payload : List BusEvent} {v : Word} (chunk : IsChunk m n reads v payload) :
    opCounts (reads ++ ⟨.write, Reg.fifo2.offset, v⟩ :: payload) = (0, reads.length, chunkWrites n) := by
  have header : opCounts [⟨.write, Reg.fifo2.offset, v⟩] = (0, 0, 1) := rfl
  rw [← List.singleton_append, opCounts_append, opCounts_append, header, opCounts_reads chunk.onlyReads,
    opCounts_payload chunk.payload.onlyPorts, chunk.payload.length]
  simp [chunkWrites]

/-- R149: no `EN` write, at least one and at most `m` status reads for each chunk, and the FIFO writes of each. -/
theorem opCounts_of_chunkEvents {m : Nat} {ns : List Nat} {ev : List BusEvent} (chunks : ChunkEvents m ns ev) :
    ∃ k, opCounts ev = (0, k, (ns.map chunkWrites).sum) ∧ ns.length ≤ k ∧ k ≤ ns.length * m := by
  induction chunks with
  | none => exact ⟨0, rfl, Nat.le_refl 0, Nat.zero_le _⟩
  | @chunk n ns reads payload rest v chunk _ ih =>
    obtain ⟨k, counts, atLeast, atMost⟩ := ih
    have someReads := chunk.someReads
    have within := chunk.withinBudget
    refine ⟨reads.length + k, ?_, ?_, ?_⟩
    · rw [opCounts_append, opCounts_chunk chunk, counts]
      rfl
    · rw [List.length_cons]
      omega
    · rw [List.length_cons, Nat.succ_mul]
      omega

/-- R136: five FIFO writes for each full chunk, and those of the residual one. -/
theorem chunkWrites_sum (full res : Nat) :
    ((chunkLengths full res).map chunkWrites).sum = 5 * full + if res = 0 then 0 else chunkWrites res := by
  have whole : chunkWrites 128 = 5 := rfl
  rw [chunkLengths, List.map_append, List.sum_append, List.map_replicate, List.sum_replicate, smul_eq_mul, Nat.mul_comm,
    whole]
  split_ifs <;> rfl

end Sys2Proof.Machine

namespace Sys2Proof.Safety

open Sys2Proof.Machine

/-! ### A command that ends `OK` -/

/-- The bus operations of a command that ends `OK`: the `EN` write, and those of its chunks. -/
theorem newEvents_of_ok {s t : State} {r : CmdRecord} (offered : Offered r s) (op : r.op = 1#1)
    (wellFormed : (decodeCmd r).wellFormed = true) (ends : CommandEnds s t) (ok : t.result = .ok) :
    ∃ ev, newEvents s t = ⟨.write, Reg.en.offset, BitVec.ofNat 32 (2 ^ r.chainId.toNat)⟩ :: ev ∧
      ChunkEvents s.params.maxIter.toNat (chunkLengths (r.lengthInBits.toNat / 128) (r.lengthInBits.toNat % 128)) ev := by
  obtain ⟨t', ends', answer, -⟩ := programChainAgreesWithTheAlgorithm s r (fun i => (r.table[i]?).getD 0) offered op
    wellFormed fun i w word => by rw [word, Option.getD_some]
  obtain rfl := commandEnds_unique ends ends'
  by_cases invalid : 3 < r.chainId.toNat ∨ r.tableLen.toNat < (r.lengthInBits.toNat + 31) / 32
  · rw [programChain_of_invalid invalid, ok] at answer
    cases answer
  · obtain ⟨chain, fits⟩ := not_or.1 invalid
    rw [programChain_of_valid (Nat.not_lt.1 chain) (Nat.not_lt.1 fits), ok] at answer
    obtain ⟨ev, trace, chunks⟩ := sendChunks_ok_events _ answer.symm
    rw [fullChunksOf_toNat, residualOf_toNat] at chunks
    refine ⟨ev, ?_, chunks⟩
    have split := trace.trans (List.append_assoc ..)
    exact (congrArg (List.drop s.trace.length) split).trans List.drop_left

/-- R146, R147: the packets of such a command. -/
theorem packets_of_ok {s t : State} {r : CmdRecord} (offered : Offered r s) (op : r.op = 1#1)
    (wellFormed : (decodeCmd r).wellFormed = true) (ends : CommandEnds s t) (ok : t.result = .ok) :
    (packets (newEvents s t)).map Packet.bits =
        chunkLengths (r.lengthInBits.toNat / 128) (r.lengthInBits.toNat % 128) ∧
      ∀ q ∈ packets (newEvents s t), q.payload.length = payloadBytes q.bits := by
  obtain ⟨ev, events, chunks⟩ := newEvents_of_ok offered op wellFormed ends ok
  obtain ⟨ps, scanned, bits, bytes⟩ := packets_of_chunkEvents chunks ⟨[], false, none⟩
  have all : packets (newEvents s t) = ps := by
    rw [events, packets_eq_scan]
    exact scanned
  rw [all]
  exact ⟨bits, bytes⟩

/-- Settles O54: the packets have the lengths of the chunks, which add up to `LEN`. -/
theorem okCommandPacketsAddUpToTheLength : Obligations.OkCommandPacketsAddUpToTheLength := by
  intro s t r offered op wellFormed ends ok
  obtain ⟨bits, bytes⟩ := packets_of_ok offered op wellFormed ends ok
  refine ⟨?_, fun q mem => ?_⟩
  · rw [bits, chunkLengths_sum, Nat.div_add_mod]
  · have length : q.bits ∈ (packets (newEvents s t)).map Packet.bits := List.mem_map_of_mem mem
    rw [bits] at length
    obtain ⟨pos, le⟩ := mem_chunkLengths (Nat.mod_lt _ (by decide)) length
    exact ⟨pos, le, bytes q mem⟩

/-- Settles O55: the `EN` write and the counts of the chunks. -/
theorem okCommandOperationCounts : Obligations.OkCommandOperationCounts := by
  intro s t r offered op wellFormed ends ok
  obtain ⟨bits, -⟩ := packets_of_ok offered op wellFormed ends ok
  obtain ⟨ev, events, chunks⟩ := newEvents_of_ok offered op wellFormed ends ok
  obtain ⟨k, counts, atLeast, atMost⟩ := opCounts_of_chunkEvents chunks
  rw [chunkLengths_length] at atLeast atMost
  rw [chunkWrites_sum] at counts
  have enable : opCounts [⟨.write, Reg.en.offset, BitVec.ofNat 32 (2 ^ r.chainId.toNat)⟩] = (1, 0, 0) := rfl
  have all := opCounts_append [⟨.write, Reg.en.offset, BitVec.ofNat 32 (2 ^ r.chainId.toNat)⟩] ev
  rw [enable, counts, List.singleton_append, ← events] at all
  obtain ⟨en, reads, fifo⟩ : countWrites .en (newEvents s t) = 1 ∧ countReads (newEvents s t) = k ∧
      fifoWrites (newEvents s t) = 5 * (r.lengthInBits.toNat / 128) +
        if r.lengthInBits.toNat % 128 = 0 then 0 else chunkWrites (r.lengthInBits.toNat % 128) := by
    simpa [opCounts] using all
  have residual : chunkWrites (r.lengthInBits.toNat % 128) =
      1 + r.lengthInBits.toNat % 128 / 32 + (if r.lengthInBits.toNat % 32 = 0 then 0 else 1) := by
    rw [chunkWrites, payloadWrites, Nat.mod_mod_of_dvd _ (by decide), Nat.add_assoc]
  dsimp only
  rw [en, reads, ← residual]
  exact ⟨rfl, by rw [← chunkLengths_length, ← bits, List.length_map], atLeast, atMost, fifo⟩

end Sys2Proof.Safety
end

section
/-! Proof that a `PROGRAM_CHAIN` ends within its bound (43_arithmetic_and_sequencing.md R180). How many steps a command
can still take is a function of the state, and every step of a run lowers it. -/

namespace Sys2Proof.Safety

open Sys2Proof.Machine

/-! ### How many steps are left, phase by phase -/

/-- The chunks not yet started (R12), as a number. -/
def chunksToGo (s : State) : Nat := s.fullLeft.toNat + (if s.res = 0#7 then 0 else 1)

/-- Steps for `n` chunks: for each one the start, the check, a poll for each unit of the budget, the header and at most
four writes. -/
def chunkSteps (s : State) (n : Nat) : Nat := n * (s.params.maxIter.toNat + 7)

/-- Steps left between two chunks: those of the chunks to go, and the one that ends the command. -/
def stepsBetweenChunks (s : State) : Nat := chunkSteps s (chunksToGo s) + 1

/-- The most steps a `PROGRAM_CHAIN` can still take. -/
def stepsLeft (s : State) : Nat :=
  match s.phase with
  | .ready => 0
  | .validate => chunkSteps s (chunkCount s.len.toNat) + 4
  | .select => chunkSteps s (chunkCount s.len.toNat) + 3
  | .plan => chunkSteps s (chunkCount s.len.toNat) + 2
  | .nextChunk => stepsBetweenChunks s
  | .monStart => stepsBetweenChunks s + s.params.maxIter.toNat + 6
  | .monRead => stepsBetweenChunks s + s.budget.toNat + 5
  | .hdr => stepsBetweenChunks s + 5
  | .data => stepsBetweenChunks s + s.wcnt.toNat + (if s.rem = 0#5 then 0 else 1)
  | .remw => stepsBetweenChunks s + 1

section Phases

variable {s : State}

theorem stepsLeft_ready (h : s.phase = .ready) : stepsLeft s = 0 := by
  rw [stepsLeft, h]

theorem stepsLeft_validate (h : s.phase = .validate) :
    stepsLeft s = chunkSteps s (chunkCount s.len.toNat) + 4 := by
  rw [stepsLeft, h]

theorem stepsLeft_select (h : s.phase = .select) : stepsLeft s = chunkSteps s (chunkCount s.len.toNat) + 3 := by
  rw [stepsLeft, h]

theorem stepsLeft_plan (h : s.phase = .plan) : stepsLeft s = chunkSteps s (chunkCount s.len.toNat) + 2 := by
  rw [stepsLeft, h]

theorem stepsLeft_nextChunk (h : s.phase = .nextChunk) : stepsLeft s = stepsBetweenChunks s := by
  rw [stepsLeft, h]

theorem stepsLeft_monStart (h : s.phase = .monStart) :
    stepsLeft s = stepsBetweenChunks s + s.params.maxIter.toNat + 6 := by
  rw [stepsLeft, h]

theorem stepsLeft_monRead (h : s.phase = .monRead) : stepsLeft s = stepsBetweenChunks s + s.budget.toNat + 5 := by
  rw [stepsLeft, h]

theorem stepsLeft_hdr (h : s.phase = .hdr) : stepsLeft s = stepsBetweenChunks s + 5 := by
  rw [stepsLeft, h]

theorem stepsLeft_data (h : s.phase = .data) :
    stepsLeft s = stepsBetweenChunks s + s.wcnt.toNat + (if s.rem = 0#5 then 0 else 1) := by
  rw [stepsLeft, h]

theorem stepsLeft_remw (h : s.phase = .remw) : stepsLeft s = stepsBetweenChunks s + 1 := by
  rw [stepsLeft, h]

end Phases

/-! ### Every operation lowers it -/

section Operations

variable {s t : State}

/-- A started chunk takes its steps from those between two chunks. -/
theorem stepsBetweenChunks_of_started (params : t.params = s.params) (started : chunksToGo s = chunksToGo t + 1) :
    stepsBetweenChunks s = stepsBetweenChunks t + s.params.maxIter.toNat + 7 := by
  rw [stepsBetweenChunks, stepsBetweenChunks, chunkSteps, chunkSteps, params, started, Nat.succ_mul]
  omega

theorem stepsLeft_of_ready (busyBound : 0 < stepsLeft s) (ready : t.phase = .ready) : stepsLeft t < stepsLeft s := by
  rwa [stepsLeft_ready ready]

theorem stepsLeft_of_validate (phase : s.phase = .validate) (h : exec .validate s = .next t) :
    stepsLeft t < stepsLeft s := by
  have bound := stepsLeft_validate phase
  obtain ⟨-, rfl⟩ | ⟨-, -, rfl⟩ := execValidate_cases h
  · exact stepsLeft_of_ready (by omega) rfl
  · rw [bound, stepsLeft_select rfl]
    exact Nat.lt_succ_self _

theorem stepsLeft_of_select (phase : s.phase = .select) (h : exec .select s = .next t) :
    stepsLeft t < stepsLeft s := by
  cases h
  rw [stepsLeft_select phase, stepsLeft_plan rfl]
  exact Nat.lt_succ_self _

/-- `PLAN` cuts the length into as many chunks as R149 counts. -/
theorem stepsLeft_of_plan (phase : s.phase = .plan) (h : exec .plan s = .next t) : stepsLeft t < stepsLeft s := by
  have residual : residualOf s.len = 0#7 ↔ s.len.toNat % 128 = 0 := by
    rw [← BitVec.toNat_inj, residualOf_toNat, BitVec.toNat_zero]
  have chunks : chunksToGo t = chunkCount s.len.toNat := by
    cases h
    simp only [chunksToGo, chunkCount, fullChunksOf_toNat, residual]
  cases h
  rw [stepsLeft_plan phase, stepsLeft_nextChunk rfl, stepsBetweenChunks, chunks]
  exact Nat.lt_succ_self _

/-- `CHUNK` starts one of the chunks to go, or ends the command. -/
theorem stepsLeft_of_chunk (phase : s.phase = .nextChunk) (h : exec .chunk s = .next t) :
    stepsLeft t < stepsLeft s := by
  have bound := stepsLeft_nextChunk phase
  have drops (params : t.params = s.params) (next : t.phase = .monStart) (started : chunksToGo s = chunksToGo t + 1) :
      stepsLeft t < stepsLeft s := by
    rw [bound, stepsLeft_monStart next, stepsBetweenChunks_of_started params started, params]
    exact Nat.lt_succ_self _
  obtain ⟨full, rfl⟩ | ⟨-, residual, rfl⟩ | ⟨-, -, rfl⟩ := execChunk_cases h
  · refine drops rfl rfl ?_
    have pos : 1 ≤ s.fullLeft.toNat := full
    simp only [chunksToGo, pred_toNat pos]
    omega
  · have someBits : s.res ≠ 0#7 := (BitVec.pos_iff_ne_zero _).1 residual
    refine drops rfl rfl ?_
    simp only [chunksToGo, if_neg someBits, if_true]
  · exact stepsLeft_of_ready (bound ▸ Nat.succ_pos _) rfl

theorem stepsLeft_of_check (phase : s.phase = .monStart) (op : s.op ≠ 0#1) (maxi : s.maxi = s.params.maxIter)
    (h : exec .check s = .next t) : stepsLeft t < stepsLeft s := by
  have bound := stepsLeft_monStart phase
  obtain ⟨-, rfl⟩ | ⟨-, rfl⟩ := execCheck_cases h
  · exact stepsLeft_of_ready (by omega) (by rw [endOfCheck_timedOut op])
  · rw [bound, stepsLeft_monRead rfl, ← maxi]
    exact Nat.lt_succ_self _

/-- `POLL` ends the check or takes a unit of the budget. -/
theorem stepsLeft_of_poll (phase : s.phase = .monRead) (op : s.op ≠ 0#1) (pos : 1 ≤ s.budget.toNat)
    (h : exec .poll s = .next t) : stepsLeft t < stepsLeft s := by
  have bound := stepsLeft_monRead phase
  obtain ⟨-, rfl⟩ | ⟨-, -, rfl⟩ | ⟨-, -, rfl⟩ := execPoll_cases h
  · have idle := endOfCheck_idle (s := s.readStat) op
    have same : stepsBetweenChunks (s.readStat.endOfCheck .idle) = stepsBetweenChunks s := by rw [idle]; rfl
    rw [bound, stepsLeft_hdr (by rw [idle]), same]
    omega
  · refine stepsLeft_of_ready (by omega) ?_
    rw [endOfCheck_timedOut (s := { s.readStat with budget := decBudget s.budget }) op]
  · have units := decBudget_toNat pos
    have same : stepsBetweenChunks { s.readStat with budget := decBudget s.budget, phase := .monRead } =
        stepsBetweenChunks s := rfl
    rw [bound, stepsLeft_monRead rfl, same, units]
    omega

/-- A packet of at most 128 bits takes at most four writes after its header. -/
theorem packet_writes_le {n : BitVec 8} (within : n.toNat ≤ 128) :
    (wordsOf n).toNat + (if remainderOf n = 0#5 then 0 else 1) ≤ 4 := by
  have noRemainder : remainderOf n = 0#5 ↔ n.toNat % 32 = 0 := by
    rw [← BitVec.toNat_inj, remainderOf_toNat, BitVec.toNat_zero]
  simp only [wordsOf_toNat, noRemainder]
  split <;> omega

theorem stepsLeft_of_hdr (phase : s.phase = .hdr) (within : s.curL.toNat ≤ 128) (h : exec .hdr s = .next t) :
    stepsLeft t < stepsLeft s := by
  have bound := stepsLeft_hdr phase
  have same : stepsBetweenChunks t = stepsBetweenChunks s := by rw [exec_hdr_frame h]; rfl
  obtain ⟨wcnt, rem, next⟩ : t.wcnt = wordsOf s.curL ∧ t.rem = remainderOf s.curL ∧
      t.phase = if wordsOf s.curL > 0#3 then .data else .remw := by cases h; exact ⟨rfl, rfl, rfl⟩
  split at next
  · have writes := packet_writes_le within
    rw [bound, stepsLeft_data next, same, wcnt, rem]
    omega
  · rw [bound, stepsLeft_remw next, same]
    omega

/-- `DATAW` takes one of the words, and the remainder follows only if there is one. -/
theorem stepsLeft_of_dataw (phase : s.phase = .data) (pos : 1 ≤ s.wcnt.toNat) (h : exec .dataw s = .next t) :
    stepsLeft t < stepsLeft s := by
  have bound := stepsLeft_data phase
  have same : stepsBetweenChunks t = stepsBetweenChunks s := by rw [exec_dataw_frame h]; rfl
  obtain ⟨wcnt, rem, next⟩ : t.wcnt.toNat = s.wcnt.toNat - 1 ∧ t.rem = s.rem ∧
      t.phase = if decWcnt s.wcnt > 0#3 then .data else if s.rem > 0#5 then .remw else .nextChunk := by
    obtain ⟨w, -, rfl⟩ := execDataw_cases h
    exact ⟨decWcnt_toNat pos, rfl, rfl⟩
  split_ifs at next with more remainder
  · rw [bound, stepsLeft_data next, same, wcnt, rem]
    omega
  · have someRem : s.rem ≠ 0#5 := (BitVec.pos_iff_ne_zero _).1 remainder
    rw [bound, stepsLeft_remw next, same, if_neg someRem]
    omega
  · rw [bound, stepsLeft_nextChunk next, same]
    omega

theorem stepsLeft_of_remw (phase : s.phase = .remw) (h : exec .remw s = .next t) : stepsLeft t < stepsLeft s := by
  have same : stepsBetweenChunks t = stepsBetweenChunks s := by rw [exec_remw_frame h]; rfl
  obtain ⟨w, -, rfl⟩ := execRemw_cases h
  rw [stepsLeft_remw phase, stepsLeft_nextChunk rfl, same]
  exact Nat.lt_succ_self _

end Operations

/-! ### A whole command -/

section Command

variable {tbl : Nat → Word} {r : CmdRecord} {base : List BusEvent} {k : Nat} {s t : State}

/-- R180: every step of a running `PROGRAM_CHAIN` lowers the number of steps left. -/
theorem stepsLeft_of_step (run : RunOf tbl r base s) (busy : s.phase ≠ .ready) (h : step s = .next t) :
    stepsLeft t < stepsLeft s := by
  obtain ⟨i, decoded, ran⟩ := exec_of_step_busy run.undisturbed busy h
  obtain ⟨-, latches⟩ := run.latch
  cases phase : s.phase <;> rw [phase] at decoded
  case ready => exact absurd phase busy
  case validate => cases decoded; exact stepsLeft_of_validate phase ran
  case select => cases decoded; exact stepsLeft_of_select phase ran
  case plan => cases decoded; exact stepsLeft_of_plan phase ran
  case nextChunk => cases decoded; exact stepsLeft_of_chunk phase ran
  case monStart => cases decoded; exact stepsLeft_of_check phase run.op_ne (run.maxi_monStart phase) ran
  case monRead =>
    cases decoded
    obtain ⟨-, pos, -⟩ := (phaseInv_monRead phase).1 latches
    exact stepsLeft_of_poll phase run.op_ne pos ran
  case hdr =>
    cases decoded
    obtain ⟨-, -, -, within, -⟩ := (phaseInv_hdr phase).1 latches
    exact stepsLeft_of_hdr phase within ran
  case data =>
    cases decoded
    obtain ⟨-, pos, -⟩ := (phaseInv_data phase).1 latches
    exact stepsLeft_of_dataw phase pos ran
  case remw => cases decoded; exact stepsLeft_of_remw phase ran

theorem leadsBusy_le_stepsLeft (run : RunOf tbl r base s) (h : LeadsBusy k s t) : k ≤ stepsLeft s := by
  induction k generalizing s with
  | zero => exact Nat.zero_le _
  | succ k ih =>
    obtain ⟨u, busy, next, rest⟩ := leadsBusy_succ_cases h
    exact (ih (runOf_of_step run busy next) rest).trans_lt (stepsLeft_of_step run busy next)

/-- Between its acceptance and its end a command keeps the block busy. -/
theorem leadsBusy_of_endsAfter (ends : EndsAfter (k + 1) s t) : ∃ u, step s = .next u ∧ LeadsBusy k u t := by
  obtain ⟨-, leads, -, busy⟩ := ends
  obtain ⟨u, accepted, rest⟩ := leads_succ.1 leads
  exact ⟨u, accepted, rest, fun j v inside before =>
    busy (j + 1) v (Nat.succ_pos j) (Nat.succ_lt_succ inside) (leads_succ.2 ⟨u, accepted, before⟩)⟩

end Command

/-- Settles O52: the command ends, and from its acceptance on it takes no more steps than were left there. -/
theorem programChainEndsWithinItsBound : Obligations.ProgramChainEndsWithinItsBound := by
  intro s r offered op wellFormed
  have table : ∀ (i : Nat) (w : Word), r.table[i]? = some w → (r.table[i]?).getD 0 = w := fun i w word => by
    rw [word, Option.getD_some]
  obtain ⟨t, ⟨k, ends⟩, -⟩ := programChainAgreesWithTheAlgorithm s r (fun i => (r.table[i]?).getD 0) offered
    op wellFormed table
  obtain ⟨j, rfl⟩ := Nat.exists_eq_add_of_le' ends.1
  obtain ⟨u, accepts, run⟩ := leadsBusy_of_endsAfter ends
  have bound := leadsBusy_le_stepsLeft (runOf_of_accepted offered op wellFormed table accepts) run
  obtain ⟨own, ready, rest, offers⟩ := offered
  rw [step_of_programChain_offer own ready offers op] at accepts
  cases accepts
  have atAcceptance : stepsLeft (s.afterProgramChain r rest) =
      chunkCount r.lengthInBits.toNat * (s.params.maxIter.toNat + 7) + 4 := stepsLeft_validate rfl
  refine ⟨j + 1, t, ends, ?_⟩
  omega

end Sys2Proof.Safety
end

section
/-! Proof that the latches whose reset value is unspecified are never observed (43_arithmetic_and_sequencing.md R178,
10_state.md R28). In each phase some of those latches can still be read before they are written; `State.live` keeps
these and forgets the others. An operation does the same to a state and to what is live of it, so two states of which
the same is live stay so. -/

namespace Sys2Proof.Machine

/-! ### What is live of a state -/

/-- The state without the latches whose reset value is unspecified (R28): they hold what they hold after reset. -/
def State.observed (s : State) : State :=
  { s with
    op := 0#1, chainId := 0#32, len := 0#32, tableLen := 0#32, maxi := 0#32, fullLeft := 0#32, res := 0#7, idx := 0#32
    curL := 0#8, wcnt := 0#3, rem := 0#5, budget := 0#32, poll := .polling, verdict := .idle }

/-- With the operands of an `IS_IDLE` (R11) as well. -/
def State.withIsIdle (s : State) : State := { s.observed with op := s.op, maxi := s.maxi }

/-- With the budget that is left of an `IS_IDLE` instead. -/
def State.withIsIdleCheck (s : State) : State := { s.observed with op := s.op, budget := s.budget }

/-- With the operands of a `PROGRAM_CHAIN` (R11) as well. -/
def State.withCommand (s : State) : State :=
  { s with
    fullLeft := 0#32, res := 0#7, idx := 0#32, curL := 0#8, wcnt := 0#3, rem := 0#5, budget := 0#32, poll := .polling
    verdict := .idle }

/-- With what `PLAN` writes as well. -/
def State.withPlan (s : State) : State :=
  { s with curL := 0#8, wcnt := 0#3, rem := 0#5, budget := 0#32, poll := .polling, verdict := .idle }

/-- With the length of the started chunk as well. -/
def State.withChunk (s : State) : State :=
  { s with wcnt := 0#3, rem := 0#5, budget := 0#32, poll := .polling, verdict := .idle }

/-- With the budget of the chunk's idle check as well. -/
def State.withCheck (s : State) : State := { s with wcnt := 0#3, rem := 0#5, poll := .polling, verdict := .idle }

/-- With what is left of the chunk's packet as well, its idle check being over. -/
def State.withPacket (s : State) : State := { s with budget := 0#32, poll := .polling, verdict := .idle }

/-- What is live in an `IS_IDLE`: its budget while it runs, and its verdict when it is over. Its other phases are never
taken, and there everything counts as live. -/
def State.isIdleLive (s : State) : State :=
  match s.phase with
  | .ready => { s.observed with op := s.op, verdict := s.verdict }
  | .monStart => s.withIsIdle
  | .monRead => s.withIsIdleCheck
  | _ => s

/-- What is live in a `PROGRAM_CHAIN`. -/
def State.chainLive (s : State) : State :=
  match s.phase with
  | .ready => { s.observed with op := s.op }
  | .validate => s.withCommand
  | .select => s.withCommand
  | .plan => s.withCommand
  | .nextChunk => s.withPlan
  | .monStart => s.withChunk
  | .monRead => s.withCheck
  | .hdr => s.withChunk
  | .data => s.withPacket
  | .remw => s.withPacket

/-- What is live of a state once a command has been accepted. -/
def State.live (s : State) : State := if s.op = 0#1 then s.isIdleLive else s.chainLive

theorem live_of_isIdle {s : State} (op : s.op = 0#1) : s.live = s.isIdleLive := if_pos op

theorem live_of_chain {s : State} (op : s.op ≠ 0#1) : s.live = s.chainLive := if_neg op

theorem isIdleLive_keeps (s : State) : s.isIdleLive.observed = s.observed ∧ s.isIdleLive.op = s.op := by
  rw [State.isIdleLive]
  split <;> exact ⟨rfl, rfl⟩

theorem chainLive_keeps (s : State) : s.chainLive.observed = s.observed ∧ s.chainLive.op = s.op := by
  rw [State.chainLive]
  split <;> exact ⟨rfl, rfl⟩

/-- Nothing but those latches is forgotten, and `OP` is live throughout. -/
theorem live_keeps (s : State) : s.live.observed = s.observed ∧ s.live.op = s.op := by
  rw [State.live]
  split
  · exact isIdleLive_keeps s
  · exact chainLive_keeps s

/-- R117: the verdict of an `IS_IDLE` that is over is live. -/
theorem live_verdict {s : State} (ready : s.phase = .ready) (op : s.op = 0#1) : s.live.verdict = s.verdict := by
  rw [live_of_isIdle op, State.isIdleLive, ready]

section Agreement

variable {s t : State}

theorem observed_eq_iff : s.observed = t.observed ↔ Safety.SameButUnspecified s t := by
  simp [State.observed, Safety.SameButUnspecified]

theorem observed_eq_of_live_eq (same : s.live = t.live) : s.observed = t.observed := by
  obtain ⟨keptS, -⟩ := live_keeps s
  obtain ⟨keptT, -⟩ := live_keeps t
  rw [← keptS, ← keptT, same]

theorem op_eq_of_live_eq (same : s.live = t.live) : s.op = t.op := by
  obtain ⟨-, keptS⟩ := live_keeps s
  obtain ⟨-, keptT⟩ := live_keeps t
  rw [← keptS, ← keptT, same]

end Agreement

/-! ### Outcomes of which the same is live -/

/-- What is live of an outcome; the reason of a stop is. -/
def liveOutcome : Host.Outcome State Fault Refusal → Host.Outcome State Fault Refusal
  | .next s => .next s.live
  | .fault f => .fault f
  | .refused r => .refused r

/-- The same is live of two outcomes. -/
def SameLive (x y : Host.Outcome State Fault Refusal) : Prop := liveOutcome x = liveOutcome y

theorem exists_next_of_sameLive {s : State} {y : Host.Outcome State Fault Refusal} (same : SameLive (.next s) y) :
    ∃ t, y = .next t ∧ s.live = t.live := by
  cases y with
  | next t => exact ⟨t, rfl, Host.Outcome.next.inj same⟩
  | fault f => cases same
  | refused r => cases same

section NextStates

variable {x y : Host.Outcome State Fault Refusal} {a b : State}

theorem sameLive_of_isIdle (left : x = .next a) (right : y = .next b) (opA : a.op = 0#1) (opB : b.op = 0#1)
    (same : a.isIdleLive = b.isIdleLive) : SameLive x y := by
  rw [left, right, SameLive, liveOutcome, liveOutcome, live_of_isIdle opA, live_of_isIdle opB, same]

theorem sameLive_of_chain (left : x = .next a) (right : y = .next b) (opA : a.op ≠ 0#1) (opB : b.op ≠ 0#1)
    (same : a.chainLive = b.chainLive) : SameLive x y := by
  rw [left, right, SameLive, liveOutcome, liveOutcome, live_of_chain opA, live_of_chain opB, same]

end NextStates

/-! ### What operations do at the operands their next phase depends on -/

section Operations

variable {s : State}

/-- R113: a busy word that leaves no budget ends the check, whatever the budget was. -/
theorem exec_poll_of_spent (h : 2 ^ 28 ≤ s.statusAnswer.toNat) (spent : decBudget s.budget = 0#32) :
    exec .poll s = .next (({ s.readStat with budget := 0#32 } : State).endOfCheck .timedOut) := by
  rw [exec_poll_of_busy h, endOfCheck_timedOut_eq, spent]
  rfl

/-- R113: a busy word that leaves some budget. -/
theorem exec_poll_of_left (h : 2 ^ 28 ≤ s.statusAnswer.toNat) (left : decBudget s.budget ≠ 0#32) :
    exec .poll s = .next { s.readStat with budget := decBudget s.budget, phase := .monRead } := by
  rw [exec_poll_of_busy h]
  simp [left]

theorem exec_hdr_of_words (words : wordsOf s.curL > 0#3) :
    exec .hdr s = .next { s.headerSent with phase := .data } := by
  change Host.Outcome.next s.headerSent = _
  rw [State.headerSent, if_pos words]

theorem exec_hdr_of_no_words (noWords : ¬wordsOf s.curL > 0#3) :
    exec .hdr s = .next { s.headerSent with phase := .remw } := by
  change Host.Outcome.next s.headerSent = _
  rw [State.headerSent, if_neg noWords]

/-- R139, with the next phase as a variable. -/
theorem exec_dataw_of_read {w : Word} {p : Phase} (read : tblRead s s.idx.toNat = .ok w)
    (next : (if decWcnt s.wcnt > 0#3 then .data else if s.rem > 0#5 then .remw else .nextChunk) = p) :
    exec .dataw s =
      .next
        { s.writeFifo .fifo4 w with idx := s.idx + 1#32, wcnt := decWcnt s.wcnt, phase := p } := by
  rw [exec_dataw, execDataw, read, ← next]

theorem dataw_next_cases (s : State) :
    let next : Phase := if decWcnt s.wcnt > 0#3 then .data else if s.rem > 0#5 then .remw else .nextChunk
    next = .data ∨ next = .remw ∨ next = .nextChunk := by
  dsimp only
  split_ifs <;> simp

/-! ### The operations of a `PROGRAM_CHAIN` -/

theorem validate_sameLive (op : s.op ≠ 0#1) : SameLive (exec .validate s) (exec .validate s.withCommand) := by
  by_cases invalid : 3 < s.chainId.toNat ∨ s.tableLen.toNat < (s.len.toNat + 31) / 32
  · exact sameLive_of_chain ((exec_validate_eq s).trans (congrArg _ (if_pos invalid)))
      ((exec_validate_eq s.withCommand).trans (congrArg _ (if_pos invalid))) op op rfl
  · exact sameLive_of_chain ((exec_validate_eq s).trans (congrArg _ (if_neg invalid)))
      ((exec_validate_eq s.withCommand).trans (congrArg _ (if_neg invalid))) op op rfl

theorem select_sameLive (op : s.op ≠ 0#1) : SameLive (exec .select s) (exec .select s.withCommand) :=
  sameLive_of_chain rfl rfl op op rfl

theorem plan_sameLive (op : s.op ≠ 0#1) : SameLive (exec .plan s) (exec .plan s.withCommand) :=
  sameLive_of_chain rfl rfl op op rfl

theorem chunk_sameLive (op : s.op ≠ 0#1) : SameLive (exec .chunk s) (exec .chunk s.withPlan) := by
  obtain noFull | full := Nat.eq_zero_or_pos s.fullLeft.toNat
  · obtain noResidual | residual := Nat.eq_zero_or_pos s.res.toNat
    · exact sameLive_of_chain (exec_chunk_of_none_left noFull noResidual)
        (exec_chunk_of_none_left (s := s.withPlan) noFull noResidual) op op rfl
    · exact sameLive_of_chain (exec_chunk_of_residual noFull residual)
        (exec_chunk_of_residual (s := s.withPlan) noFull residual) op op rfl
  · exact sameLive_of_chain (exec_chunk_of_full full) (exec_chunk_of_full (s := s.withPlan) full) op op rfl

theorem check_sameLive (op : s.op ≠ 0#1) : SameLive (exec .check s) (exec .check s.withChunk) := by
  by_cases noBudget : s.maxi = 0#32
  · have left := (exec_check_of_no_budget noBudget).trans (congrArg _ (endOfCheck_timedOut op))
    have right := (exec_check_of_no_budget (s := s.withChunk) noBudget).trans
      (congrArg _ (endOfCheck_timedOut (s := s.withChunk) op))
    exact sameLive_of_chain left right op op rfl
  · exact sameLive_of_chain (exec_check_of_budget noBudget)
      (exec_check_of_budget (s := s.withChunk) noBudget) op op rfl

theorem poll_sameLive (op : s.op ≠ 0#1) : SameLive (exec .poll s) (exec .poll s.withCheck) := by
  obtain idle | busy := Nat.lt_or_ge s.statusAnswer.toNat (2 ^ 28)
  · have left := (exec_poll_of_idle idle).trans (congrArg _ (endOfCheck_idle (s := s.readStat) op))
    have right := (exec_poll_of_idle (s := s.withCheck) idle).trans
      (congrArg _ (endOfCheck_idle (s := s.withCheck.readStat) op))
    exact sameLive_of_chain left right op op rfl
  by_cases spent : decBudget s.budget = 0#32
  · have left := (exec_poll_of_spent busy spent).trans
      (congrArg _ (endOfCheck_timedOut (s := { s.readStat with budget := 0#32 }) op))
    have right := (exec_poll_of_spent (s := s.withCheck) busy spent).trans
      (congrArg _ (endOfCheck_timedOut (s := { s.withCheck.readStat with budget := 0#32 }) op))
    exact sameLive_of_chain left right op op rfl
  · exact sameLive_of_chain (exec_poll_of_left busy spent) (exec_poll_of_left (s := s.withCheck) busy spent) op op rfl

theorem hdr_sameLive (op : s.op ≠ 0#1) : SameLive (exec .hdr s) (exec .hdr s.withChunk) := by
  by_cases words : wordsOf s.curL > 0#3
  · exact sameLive_of_chain (exec_hdr_of_words words) (exec_hdr_of_words (s := s.withChunk) words) op op rfl
  · exact sameLive_of_chain (exec_hdr_of_no_words words) (exec_hdr_of_no_words (s := s.withChunk) words) op op rfl

theorem dataw_sameLive (op : s.op ≠ 0#1) : SameLive (exec .dataw s) (exec .dataw s.withPacket) := by
  have sameRead : tblRead s.withPacket s.withPacket.idx.toNat = tblRead s s.idx.toNat := rfl
  cases read : tblRead s s.idx.toNat with
  | error f =>
    rw [exec_dataw_of_tblRead_error read, exec_dataw_of_tblRead_error (sameRead.trans read)]
    rfl
  | ok w =>
    have right {p : Phase} := exec_dataw_of_read (p := p) (sameRead.trans read)
    obtain next | next | next := dataw_next_cases s
    · exact sameLive_of_chain (exec_dataw_of_read read next) (right next) op op rfl
    · exact sameLive_of_chain (exec_dataw_of_read read next) (right next) op op rfl
    · exact sameLive_of_chain (exec_dataw_of_read read next) (right next) op op rfl

theorem remw_sameLive (op : s.op ≠ 0#1) : SameLive (exec .remw s) (exec .remw s.withPacket) := by
  have sameRead : tblRead s.withPacket s.withPacket.idx.toNat = tblRead s s.idx.toNat := rfl
  cases read : tblRead s s.idx.toNat with
  | error f =>
    rw [exec_remw_of_tblRead_error read, exec_remw_of_tblRead_error (sameRead.trans read)]
    rfl
  | ok w =>
    obtain ⟨inside, word⟩ := tblRead_ok.1 read
    exact sameLive_of_chain (exec_remw_of_word inside word)
      (exec_remw_of_word (s := s.withPacket) inside word) op op rfl

/-! ### The operations of an `IS_IDLE` -/

theorem check_sameLive_of_isIdle (op : s.op = 0#1) :
    SameLive (exec .check s) (exec .check s.withIsIdle) := by
  by_cases noBudget : s.maxi = 0#32
  · have left := (exec_check_of_no_budget noBudget).trans (congrArg _ (endOfCheck_isIdle _ op))
    have right := (exec_check_of_no_budget (s := s.withIsIdle) noBudget).trans
      (congrArg _ (endOfCheck_isIdle (s := s.withIsIdle) _ op))
    exact sameLive_of_isIdle left right op op rfl
  · exact sameLive_of_isIdle (exec_check_of_budget noBudget)
      (exec_check_of_budget (s := s.withIsIdle) noBudget) op op rfl

theorem poll_sameLive_of_isIdle (op : s.op = 0#1) :
    SameLive (exec .poll s) (exec .poll s.withIsIdleCheck) := by
  obtain idle | busy := Nat.lt_or_ge s.statusAnswer.toNat (2 ^ 28)
  · have left := (exec_poll_of_idle idle).trans (congrArg _ (endOfCheck_isIdle (s := s.readStat) _ op))
    have right := (exec_poll_of_idle (s := s.withIsIdleCheck) idle).trans
      (congrArg _ (endOfCheck_isIdle (s := s.withIsIdleCheck.readStat) _ op))
    exact sameLive_of_isIdle left right op op rfl
  by_cases spent : decBudget s.budget = 0#32
  · have left := (exec_poll_of_spent busy spent).trans
      (congrArg _ (endOfCheck_isIdle (s := { s.readStat with budget := 0#32 }) _ op))
    have right := (exec_poll_of_spent (s := s.withIsIdleCheck) busy spent).trans
      (congrArg _ (endOfCheck_isIdle (s := { s.withIsIdleCheck.readStat with budget := 0#32 }) _ op))
    exact sameLive_of_isIdle left right op op rfl
  · exact sameLive_of_isIdle (exec_poll_of_left busy spent)
      (exec_poll_of_left (s := s.withIsIdleCheck) busy spent) op op rfl

/-! ### Any operation that `PHASE` selects, and an accepted command -/

/-- An operation of a running command does the same to what is live. -/
theorem exec_phase_sameLive {i : Instr} (decoded : decode (.seq s.phase.code) = .ok i) :
    SameLive (exec i s) (exec i s.live) := by
  by_cases op : s.op = 0#1
  · rw [live_of_isIdle op, State.isIdleLive]
    cases phase : s.phase <;> rw [phase] at decoded <;> dsimp only
    case ready => cases decoded
    case monStart => cases decoded; exact check_sameLive_of_isIdle op
    case monRead => cases decoded; exact poll_sameLive_of_isIdle op
    all_goals rfl
  · rw [live_of_chain op, State.chainLive]
    cases phase : s.phase <;> rw [phase] at decoded
    case ready => cases decoded
    case validate => cases decoded; exact validate_sameLive op
    case select => cases decoded; exact select_sameLive op
    case plan => cases decoded; exact plan_sameLive op
    case nextChunk => cases decoded; exact chunk_sameLive op
    case monStart => cases decoded; exact check_sameLive op
    case monRead => cases decoded; exact poll_sameLive op
    case hdr => cases decoded; exact hdr_sameLive op
    case data => cases decoded; exact dataw_sameLive op
    case remw => cases decoded; exact remw_sameLive op

/-- Accepting a command writes every latch that is live after it (R178). -/
theorem accept_sameLive (r : CmdRecord) (ready : s.phase = .ready) :
    SameLive (exec (decodeCmd r) s) (exec (decodeCmd r) s.observed) := by
  by_cases isIdle : r.op = 0#1
  · rw [decodeCmd, if_pos isIdle]
    exact sameLive_of_isIdle (exec_isIdle_of_ready _ ready)
      (exec_isIdle_of_ready (s := s.observed) _ ready) rfl rfl rfl
  · rw [decodeCmd, if_neg isIdle]
    have isChain : 1#1 ≠ 0#1 := by decide
    exact sameLive_of_chain (exec_programChain_of_ready _ _ _ _ ready)
      (exec_programChain_of_ready (s := s.observed) _ _ _ _ ready) isChain isChain rfl

end Operations

end Sys2Proof.Machine

namespace Sys2Proof.Safety

open Sys2Proof.Machine

/-! ### Steps and runs of two blocks -/

section TwoBlocks

variable {s t : State}

theorem undisturbed_of_observed_eq (own : Undisturbed s) (same : s.observed = t.observed) : Undisturbed t := by
  have observed : Undisturbed s.observed := own
  rw [same] at observed
  exact observed

theorem undisturbed_of_accepted {r : CmdRecord} (own : Undisturbed s) (h : exec (decodeCmd r) s = .next t) :
    Undisturbed t := by
  unfold decodeCmd at h
  split at h
  · rw [exec_isIdle_frame h]; exact own
  · rw [exec_programChain_frame h]; exact own

/-- An undisturbed block does not disturb itself. -/
theorem undisturbed_of_step (own : Undisturbed s) (h : step s = .next t) : Undisturbed t := by
  have own' := own
  obtain ⟨noReset, unplaced, -⟩ := own'
  obtain ⟨reset, -⟩ | rfl | ⟨-, r, rest, -, ran⟩ | ⟨-, i, decoded, ran⟩ := step_cases_unplaced unplaced h
  · rw [noReset] at reset; cases reset
  · exact own
  · exact undisturbed_of_accepted (s := { s with offers := rest }) own ran
  · exact undisturbed_of_runConstants own (exec_phase_runConstants decoded ran)

/-- R178: a block that accepts a command forgets every latch whose reset value is unspecified. -/
theorem step_sameLive_of_offer {r : CmdRecord} {rest : List CmdRecord} (own : Undisturbed s) (ready : s.phase = .ready)
    (offers : s.offers = r :: rest) (same : s.observed = t.observed) : SameLive (step s) (step t) := by
  have accepts {u : State} (own : Undisturbed u) (ready : u.phase = .ready) (offers : u.offers = r :: rest) :
      SameLive (step u) (exec (decodeCmd r) { u.observed with offers := rest }) := by
    obtain ⟨noReset, unplaced, -⟩ := own
    rw [step_of_offer noReset unplaced ready offers]
    exact accept_sameLive (s := { u with offers := rest }) r ready
  have readyT : t.phase = .ready := (congrArg State.phase same).symm.trans ready
  have offersT : t.offers = r :: rest := (congrArg State.offers same).symm.trans offers
  have first := accepts own ready offers
  rw [same] at first
  exact first.trans (accepts (undisturbed_of_observed_eq own same) readyT offersT).symm

/-- Two blocks of which the same is live make the same step. -/
theorem step_sameLive (own : Undisturbed s) (same : s.live = t.live) : SameLive (step s) (step t) := by
  have observed := observed_eq_of_live_eq same
  have ownT := undisturbed_of_observed_eq own observed
  have phaseT : t.phase = s.phase := (congrArg State.phase observed).symm
  by_cases ready : s.phase = .ready
  · cases offers : s.offers with
    | nil =>
      have offersT : t.offers = [] := (congrArg State.offers observed).symm.trans offers
      rw [step_ready_unoffered own ready offers, step_ready_unoffered ownT (phaseT.trans ready) offersT]
      exact congrArg Host.Outcome.next same
    | cons r rest => exact step_sameLive_of_offer own ready offers observed
  · obtain ⟨i, decoded, -⟩ := decode_busy_phase ready
    have decodedT : decode (.seq t.phase.code) = .ok i := by rw [phaseT, decoded]
    rw [step_of_undisturbed_busy own ready decoded, step_of_undisturbed_busy ownT (phaseT.symm ▸ ready) decodedT]
    have first := exec_phase_sameLive decoded
    rw [same] at first
    exact first.trans (exec_phase_sameLive decodedT).symm

/-- Two blocks of which the same is live make the same run. -/
theorem leads_of_live_eq {k : Nat} {s' : State} (own : Undisturbed s) (same : s.live = t.live) (run : Leads k s s') :
    ∃ t', Leads k t t' ∧ s'.live = t'.live := by
  induction k generalizing s t with
  | zero =>
    rw [leads_zero] at run
    exact ⟨t, leads_zero.2 rfl, run ▸ same⟩
  | succ k ih =>
    obtain ⟨u, first, rest⟩ := leads_succ.1 run
    have steps := step_sameLive own same
    rw [first] at steps
    obtain ⟨v, firstT, sameLater⟩ := exists_next_of_sameLive steps
    obtain ⟨t', restT, sameEnd⟩ := ih (undisturbed_of_step own first) sameLater rest
    exact ⟨t', leads_succ.2 ⟨v, firstT, restT⟩, sameEnd⟩

/-- Two `READY` blocks to which a command is offered make the same run, and after its first step the same is live. -/
theorem leads_of_offer {k : Nat} {s' : State} {r : CmdRecord} {rest : List CmdRecord} (own : Undisturbed s)
    (ready : s.phase = .ready) (offers : s.offers = r :: rest) (same : s.observed = t.observed)
    (run : Leads (k + 1) s s') : ∃ t', Leads (k + 1) t t' ∧ s'.live = t'.live := by
  obtain ⟨u, first, later⟩ := leads_succ.1 run
  have steps := step_sameLive_of_offer own ready offers same
  rw [first] at steps
  obtain ⟨v, firstT, sameLater⟩ := exists_next_of_sameLive steps
  obtain ⟨t', laterT, sameEnd⟩ := leads_of_live_eq (undisturbed_of_step own first) sameLater later
  exact ⟨t', leads_succ.2 ⟨v, firstT, laterT⟩, sameEnd⟩

end TwoBlocks

/-- Settles O42: with nothing offered both blocks wait, and once a command has been accepted the same is live of
both. -/
theorem unspecifiedLatchesAreNeverObserved : Obligations.UnspecifiedLatchesAreNeverObserved := by
  intro k s t s' own ready same run
  have observed := observed_eq_iff.2 same
  have waits {k : Nat} (s' : State) (stays : s' = s) (runT : Leads k t t) :
      ∃ t', Leads k t t' ∧ SameButUnspecified s' t' ∧
        (s'.offers ≠ s.offers → s'.phase = .ready → s'.op = 0#1 → t'.op = 0#1 ∧ t'.verdict = s'.verdict) := by
    subst stays
    exact ⟨t, runT, same, fun accepted => absurd rfl accepted⟩
  cases k with
  | zero => exact waits s' (leads_zero.1 run).symm (leads_zero.2 rfl)
  | succ k =>
    cases offers : s.offers with
    | nil =>
      have readyT : t.phase = .ready := (congrArg State.phase observed).symm.trans ready
      have offersT : t.offers = [] := (congrArg State.offers observed).symm.trans offers
      have stays := leads_unique run (leads_self (step_ready_unoffered own ready offers) _)
      have fixed := step_ready_unoffered (undisturbed_of_observed_eq own observed) readyT offersT
      rw [← offers]
      exact waits s' stays (leads_self fixed _)
    | cons r rest =>
      obtain ⟨t', runT, live⟩ := leads_of_offer own ready offers observed run
      have observed' := observed_eq_of_live_eq live
      refine ⟨t', runT, observed_eq_iff.1 observed', fun _ ready' op => ?_⟩
      have op' : t'.op = 0#1 := (op_eq_of_live_eq live).symm.trans op
      have readyT' : t'.phase = .ready := (congrArg State.phase observed').symm.trans ready'
      exact ⟨op', by rw [← live_verdict readyT' op', ← live, live_verdict ready' op]⟩

end Sys2Proof.Safety
end

section
/-! Proofs about one step of an undisturbed block (43_arithmetic_and_sequencing.md R175, R176, R177, R181): where it
goes and which bus operation it makes. -/

namespace Sys2Proof.Machine

/-! ### Arithmetic, and waiting in `READY` -/

/-- Settles O20: the sum does not wrap, and a 32-bit length has at most `2 ^ 27` words. -/
theorem ceilThirtyTwoIsExact : Obligations.CeilThirtyTwoIsExact := by
  intro n
  refine ⟨ceil32_toNat n, ?_⟩
  have bound := n.isLt
  rw [ceil32_toNat]
  omega

/-- Settles O31: nothing is fetched. -/
theorem readyBlockWaitsForACommand : Obligations.ReadyBlockWaitsForACommand := fun _ => step_ready_unoffered

/-! ### The bus operation of a step (R181) -/

theorem exec_decodeCmd_trace {r : CmdRecord} {s t : State} (h : exec (decodeCmd r) s = .next t) :
    t.trace = s.trace := by
  unfold decodeCmd at h
  split at h
  · rw [exec_isIdle_frame h]
  · rw [exec_programChain_frame h]

/-- R86: a remainder goes to one of the three ports. -/
theorem remainderPort_offset_cases (r : BitVec 5) :
    (remainderPort r).offset = 0x10#8 ∨ (remainderPort r).offset = 0x14#8 ∨ (remainderPort r).offset = 0x1C#8 := by
  unfold remainderPort
  split_ifs <;> simp [Reg.offset]

theorem step_ready_trace {s t : State} (own : Safety.Undisturbed s) (ready : s.phase = .ready) (h : step s = .next t) :
    t.trace = s.trace := by
  have ⟨noReset, unplaced, _⟩ := own
  obtain ⟨reset, -⟩ | rfl | ⟨-, r, rest, -, ran⟩ | ⟨busy, -⟩ := step_cases_unplaced unplaced h
  · rw [noReset] at reset; cases reset
  · rfl
  · exact exec_decodeCmd_trace (s := { s with offers := rest }) ran
  · exact absurd ready busy

/-- Settles O35: in each phase the operation it selects, and the first offer in `READY`. -/
theorem stepIssuesAtMostOneBusOperation : Obligations.StepIssuesAtMostOneBusOperation := by
  intro s t own h
  by_cases ready : s.phase = .ready
  · rw [ready]
    exact step_ready_trace own ready h
  obtain ⟨i, decoded, ran⟩ := Safety.exec_of_step_busy own ready h
  cases phase : s.phase <;> rw [phase] at decoded <;> dsimp only
  case ready => exact absurd phase ready
  case validate => cases decoded; rw [exec_validate_frame ran]
  case select => cases decoded; cases ran; exact ⟨_, rfl⟩
  case plan => cases decoded; rw [exec_plan_frame ran]
  case nextChunk => cases decoded; rw [exec_chunk_frame ran]
  case monStart => cases decoded; rw [exec_check_frame ran]
  case monRead =>
    cases decoded
    obtain ⟨trace, -⟩ := exec_poll_reads ran
    exact ⟨_, trace⟩
  case hdr => cases decoded; cases ran; exact ⟨_, rfl⟩
  case data =>
    cases decoded
    obtain ⟨w, -, rfl⟩ := execDataw_cases ran
    exact ⟨w, rfl⟩
  case remw =>
    cases decoded
    obtain ⟨w, -, rfl⟩ := execRemw_cases ran
    exact ⟨_, _, remainderPort_offset_cases s.rem, rfl⟩

/-! ### Where each operation goes (R177) -/

section Rows

variable {s t : State}

/-- The row of `READY`. -/
theorem step_ready_row (own : Safety.Undisturbed s) (ready : s.phase = .ready) (h : step s = .next t) :
    (s.offers = [] ∧ t = s) ∨
      ∃ r rest, s.offers = r :: rest ∧ t.offers = rest ∧
        ((r.op = 0#1 ∧ t.op = 0#1 ∧ t.phase = .monStart) ∨ (r.op = 1#1 ∧ t.op = 1#1 ∧ t.phase = .validate)) := by
  cases offers : s.offers with
  | nil =>
    rw [step_ready_unoffered own ready offers] at h
    cases h
    exact .inl ⟨rfl, rfl⟩
  | cons r rest =>
    have ops : ∀ b : BitVec 1, b = 0#1 ∨ b = 1#1 := by decide
    obtain isIdle | isChain := ops r.op
    · rw [Safety.step_of_isIdle_offer own ready offers isIdle] at h
      cases h
      exact .inr ⟨r, rest, rfl, rfl, .inl ⟨isIdle, rfl, rfl⟩⟩
    · rw [Safety.step_of_programChain_offer own ready offers isChain] at h
      cases h
      exact .inr ⟨r, rest, rfl, rfl, .inr ⟨isChain, rfl, rfl⟩⟩

theorem exec_validate_row (h : exec .validate s = .next t) :
    if 3 < s.chainId.toNat ∨ s.tableLen.toNat < (s.len.toNat + 31) / 32 then
      t.phase = .ready ∧ t.result = .invalidInput
    else t.phase = .select := by
  rw [exec_validate_eq] at h
  cases h
  split
  · exact ⟨rfl, rfl⟩
  · rfl

theorem exec_chunk_row (h : exec .chunk s = .next t) :
    if 0 < s.fullLeft.toNat ∨ 0 < s.res.toNat then t.phase = .monStart else t.phase = .ready ∧ t.result = .ok := by
  obtain ⟨full, rfl⟩ | ⟨-, residual, rfl⟩ | ⟨noFull, noResidual, rfl⟩ := execChunk_cases h
  · exact (if_pos (Or.inl full)).mpr rfl
  · exact (if_pos (Or.inr residual)).mpr rfl
  · exact (if_neg (not_or.2 ⟨noFull, noResidual⟩)).mpr ⟨rfl, rfl⟩

/-- The end of a check that has used up its budget, for either command (R116). -/
theorem endOfCheck_timedOut_row (s : State) :
    (s.endOfCheck .timedOut).phase = .ready ∧ (s.endOfCheck .timedOut).poll = .timedOut ∧
      (s.endOfCheck .timedOut).verdict = .active ∧
      (s.endOfCheck .timedOut).result = if s.op = 0#1 then .ok else .engineTimeout := by
  rw [endOfCheck_timedOut_eq]
  exact ⟨rfl, rfl, rfl, rfl⟩

theorem endOfCheck_idle_row (s : State) :
    (s.endOfCheck .idle).poll = .idle ∧ (s.endOfCheck .idle).verdict = .idle ∧
      if s.op = 0#1 then (s.endOfCheck .idle).phase = .ready ∧ (s.endOfCheck .idle).result = .ok
      else (s.endOfCheck .idle).phase = .hdr := by
  rw [endOfCheck_idle_eq]
  split
  · exact ⟨rfl, rfl, rfl, rfl⟩
  · exact ⟨rfl, rfl, rfl⟩

theorem exec_check_row (h : exec .check s = .next t) :
    if 0 < s.maxi.toNat then t.phase = .monRead
    else
      t.phase = .ready ∧ t.poll = .timedOut ∧ t.verdict = .active ∧
        t.result = if s.op = 0#1 then .ok else .engineTimeout := by
  obtain ⟨noBudget, rfl⟩ | ⟨budget, rfl⟩ := execCheck_cases h
  · have noUnits : ¬0 < s.maxi.toNat := by rw [noBudget]; decide
    rw [if_neg noUnits]
    exact endOfCheck_timedOut_row s
  · have units : 0 < s.maxi.toNat := one_le_toNat budget
    rw [if_pos units]

theorem exec_poll_row (h : exec .poll s = .next t) :
    if s.statusAnswer.toNat < 2 ^ 28 then
      t.poll = .idle ∧ t.verdict = .idle ∧ if s.op = 0#1 then t.phase = .ready ∧ t.result = .ok else t.phase = .hdr
    else if decBudget s.budget ≠ 0#32 then t.phase = .monRead ∧ t.budget = decBudget s.budget
    else
      t.phase = .ready ∧ t.poll = .timedOut ∧ t.verdict = .active ∧
        t.result = if s.op = 0#1 then .ok else .engineTimeout := by
  obtain ⟨idle, rfl⟩ | ⟨busy, spent, rfl⟩ | ⟨busy, left, rfl⟩ := execPoll_cases h
  · rw [if_pos ((busy_eq_false_iff _).1 idle)]
    exact endOfCheck_idle_row s.readStat
  · rw [if_neg (Nat.not_lt.2 ((busy_iff _).1 busy)), if_neg (not_not.2 spent)]
    exact endOfCheck_timedOut_row { s.readStat with budget := decBudget s.budget }
  · rw [if_neg (Nat.not_lt.2 ((busy_iff _).1 busy)), if_pos left]
    exact ⟨rfl, rfl⟩

theorem exec_hdr_row (h : exec .hdr s = .next t) :
    if 32 ≤ s.curL.toNat then t.phase = .data else t.phase = .remw := by
  rw [exec_hdr] at h
  cases h
  split <;> rfl

theorem exec_dataw_row (h : exec .dataw s = .next t) :
    if decWcnt s.wcnt ≠ 0#3 then t.phase = .data
    else if 0 < s.rem.toNat then t.phase = .remw else t.phase = .nextChunk := by
  obtain ⟨w, -, rfl⟩ := execDataw_cases h
  have words : decWcnt s.wcnt > 0#3 ↔ decWcnt s.wcnt ≠ 0#3 := BitVec.pos_iff_ne_zero _
  have remainder : s.rem > 0#5 ↔ 0 < s.rem.toNat := BitVec.lt_def
  simp only [words, remainder]
  split_ifs <;> rfl

end Rows

/-- Settles O34: the row of `READY`, and in every other phase the row of the operation it selects. -/
theorem stepFollowsTheTransitionTable : Obligations.StepFollowsTheTransitionTable := by
  intro s t own h
  by_cases ready : s.phase = .ready
  · rw [ready]
    exact step_ready_row own ready h
  obtain ⟨i, decoded, ran⟩ := Safety.exec_of_step_busy own ready h
  cases phase : s.phase <;> rw [phase] at decoded <;> dsimp only
  case ready => exact absurd phase ready
  case validate => cases decoded; exact exec_validate_row ran
  case select => cases decoded; cases ran; rfl
  case plan => cases decoded; cases ran; rfl
  case nextChunk => cases decoded; exact exec_chunk_row ran
  case monStart => cases decoded; exact exec_check_row ran
  case monRead => cases decoded; exact exec_poll_row ran
  case hdr => cases decoded; exact exec_hdr_row ran
  case data => cases decoded; exact exec_dataw_row ran
  case remw =>
    cases decoded
    obtain ⟨w, -, rfl⟩ := execRemw_cases ran
    rfl

end Sys2Proof.Machine
end

section
/-! Proofs about the two errors of the block (60_exceptions.md R201, R202, R207, R208): which operation raises each of
them, what it leaves unchanged, and a command that ends `INVALID_INPUT`. -/

namespace Sys2Proof.Machine

/-! ### What an operation does to `RESULT` -/

/-- `t` is where a `PROGRAM_CHAIN` in `s` ends when its idle check has used up its budget (R207): `EN` is untouched, and
at most the last status read has been made. -/
structure TimedOut (s t : State) : Prop where
  op : s.op = 1#1
  phase : t.phase = .ready
  poll : t.poll = .timedOut
  verdict : t.verdict = .active
  en : t.en = s.en
  trace : t.trace = s.trace ∨ ∃ v, t.trace = s.trace ++ [⟨.read, 0x00#8, v⟩]

section Results

variable {s t : State}

theorem endOfCheck_idle_result (s : State) :
    (s.endOfCheck .idle).result = s.result ∨ (s.endOfCheck .idle).result = .ok := by
  rw [endOfCheck_idle_eq]
  split
  · exact .inr rfl
  · exact .inl rfl

/-- R116: a check without an answer ends an `IS_IDLE` with `OK`, and a `PROGRAM_CHAIN` with the error. -/
theorem endOfCheck_timedOut_result (s : State) :
    (s.endOfCheck .timedOut).result = .ok ∨
      ((s.endOfCheck .timedOut).result = .engineTimeout ∧ s.op = 1#1) := by
  obtain ⟨-, -, -, result⟩ := endOfCheck_timedOut_row s
  rw [result]
  have ops : ∀ b : BitVec 1, b = 0#1 ∨ b = 1#1 := by decide
  obtain isIdle | programming := ops s.op
  · exact .inl (if_pos isIdle)
  · exact .inr ⟨if_neg (by rw [programming]; decide), programming⟩

theorem exec_check_result_cases (h : exec .check s = .next t) :
    t.result = s.result ∨ t.result = .ok ∨ (t.result = .engineTimeout ∧ TimedOut s t) := by
  obtain ⟨-, rfl⟩ | ⟨-, rfl⟩ := execCheck_cases h
  · obtain ⟨phase, poll, verdict, -⟩ := endOfCheck_timedOut_row s
    have frame := exec_check_frame h
    refine .inr ((endOfCheck_timedOut_result s).imp_right fun ⟨timeout, op⟩ => ⟨timeout, ?_⟩)
    exact ⟨op, phase, poll, verdict, by rw [frame], .inl (endOfCheck_trace s _)⟩
  · exact .inl rfl

theorem exec_poll_result_cases (h : exec .poll s = .next t) :
    t.result = s.result ∨ t.result = .ok ∨ (t.result = .engineTimeout ∧ TimedOut s t) := by
  obtain ⟨-, rfl⟩ | ⟨-, -, rfl⟩ | ⟨-, -, rfl⟩ := execPoll_cases h
  · exact (endOfCheck_idle_result s.readStat).imp_right .inl
  · obtain ⟨phase, poll, verdict, -⟩ := endOfCheck_timedOut_row { s.readStat with budget := decBudget s.budget }
    obtain ⟨trace, -⟩ := exec_poll_reads h
    have frame := exec_poll_frame h
    refine .inr ((endOfCheck_timedOut_result _).imp_right fun ⟨timeout, op⟩ => ⟨timeout, ?_⟩)
    exact ⟨op, phase, poll, verdict, by rw [frame], .inr ⟨_, trace⟩⟩
  · exact .inl rfl

/-- Everything an operation can do to `RESULT`: keep it, clear it, record `OK`, or raise one of the two errors. -/
theorem exec_result_cases {i : Instr} (h : exec i s = .next t) :
    (t.result = s.result ∨ t.result = .none ∨ t.result = .ok) ∨
      ((i = .check ∨ i = .poll) ∧ t.result = .engineTimeout ∧ TimedOut s t) ∨
      (i = .validate ∧ t = s.raise .invalidInput) := by
  cases i with
  | isIdle m =>
    by_cases ready : s.phase = .ready
    · rw [exec_isIdle_of_ready m ready] at h; cases h; exact .inl (.inr (.inl rfl))
    · rw [exec_isIdle_of_busy m ready] at h; cases h; exact .inl (.inl rfl)
  | programChain c l n tbl =>
    by_cases ready : s.phase = .ready
    · rw [exec_programChain_of_ready c l n tbl ready] at h; cases h; exact .inl (.inr (.inl rfl))
    · rw [exec_programChain_of_busy c l n tbl ready] at h; cases h; exact .inl (.inl rfl)
  | validate =>
    obtain ⟨-, raised⟩ | ⟨-, -, rfl⟩ := execValidate_cases h
    · exact .inr (.inr ⟨rfl, raised⟩)
    · exact .inl (.inl rfl)
  | chunk =>
    obtain ⟨-, rfl⟩ | ⟨-, -, rfl⟩ | ⟨-, -, rfl⟩ := execChunk_cases h
    · exact .inl (.inl rfl)
    · exact .inl (.inl rfl)
    · exact .inl (.inr (.inr rfl))
  | check =>
    obtain same | ok | timedOut := exec_check_result_cases h
    · exact .inl (.inl same)
    · exact .inl (.inr (.inr ok))
    · exact .inr (.inl ⟨.inl rfl, timedOut⟩)
  | poll =>
    obtain same | ok | timedOut := exec_poll_result_cases h
    · exact .inl (.inl same)
    · exact .inl (.inr (.inr ok))
    · exact .inr (.inl ⟨.inr rfl, timedOut⟩)
  | dataw =>
    obtain ⟨w, -, rfl⟩ := execDataw_cases h
    exact .inl (.inl rfl)
  | remw =>
    obtain ⟨w, -, rfl⟩ := execRemw_cases h
    exact .inl (.inl rfl)
  | select | plan | hdr | rdStat | wrEn _ | wrFifo1 _ | wrFifo2 _ | wrFifo4 _ | tdiTdoHdr _ =>
    cases h
    exact .inl (.inl rfl)

end Results

/-- Settles O39: of what an operation can do to `RESULT`, only the end of a check and `VALIDATE` record an error. -/
theorem errorsAreRaisedOnlyWhereNamed : Obligations.ErrorsAreRaisedOnlyWhereNamed := by
  intro i s t h
  obtain (same | noResult | ok) | ⟨isCheck, timeout, ended⟩ | ⟨isValidate, rfl⟩ := exec_result_cases h
  · rw [same]
    exact ⟨fun new raised => absurd raised new, fun new raised => absurd raised new⟩
  · rw [noResult]
    exact ⟨nofun, nofun⟩
  · rw [ok]
    exact ⟨nofun, nofun⟩
  · rw [timeout]
    obtain ⟨op, phase, poll, verdict, en, trace⟩ := ended
    exact ⟨fun _ _ => ⟨isCheck, op, phase, poll, verdict, en, trace⟩, nofun⟩
  · exact ⟨nofun, fun _ _ => ⟨isValidate, rfl⟩⟩

end Sys2Proof.Machine

namespace Sys2Proof.Safety

open Sys2Proof.Machine

/-- Settles O57: the acceptance and `VALIDATE`, neither of which makes a bus operation. -/
theorem invalidCommandTouchesNothing : Obligations.InvalidCommandTouchesNothing := by
  intro s r ⟨own, ready, rest, offers⟩ op invalid
  have accepts := step_of_programChain_offer own ready offers op
  have raises : LeadsBusy 1 (s.afterProgramChain r rest) _ := validate_leads_raise own rfl invalid
  exact ⟨_, endsAfter_of_leadsBusy accepts raises rfl, rfl, rfl, rfl, rfl⟩

end Sys2Proof.Safety
end

section
/-! Proof that a `PROGRAM_CHAIN` which times out stops at a chunk boundary (42_chain_programmer.md R137,
60_exceptions.md R207, R209). Which packets a reader finds is read off the algorithm. That they carry the first bits of
the table is what the run keeps up to its last step, the end of a check; how many bits that is, the packets' lengths
say. -/

namespace Sys2Proof.Machine

/-! ### The algorithm's bus operations up to a timeout -/

section Algorithm

variable {p : Params} {tbl : Nat → Word} {curL : BitVec 8} {res : BitVec 7} {i : Nat} {f g : Flow}

/-- R137: of a chunk whose check fails only the status reads have been made. -/
theorem sendPacket_timedOut_events (packet : sendPacket p tbl curL i f = (false, g)) :
    ∃ reads : List BusEvent, g.trace = f.trace ++ reads ∧ ∀ e ∈ reads, e.isRead = true := by
  obtain ⟨reads, trace, -, onlyReads⟩ := idleCheck_events p.maxIter.toNat f
  rw [sendPacket_eq_false.1 packet] at trace
  refine ⟨reads, trace, fun e mem => ?_⟩
  obtain ⟨isRead, -⟩ := onlyReads e mem
  exact beq_iff_eq.2 isRead

/-- R130, R137: up to a timeout the algorithm has sent `k` full chunks, fewer than there are chunks, and then only made
status reads. -/
theorem sendChunks_timedOut_events (n : Nat) (timeout : sendChunks p tbl n res i f = (.engineTimeout, g)) :
    ∃ k ev reads, k < (chunkLengths n res.toNat).length ∧ g.trace = f.trace ++ (ev ++ reads) ∧
      ChunkEvents p.maxIter.toNat (List.replicate k 128) ev ∧ ∀ e ∈ reads, e.isRead = true := by
  induction n generalizing i f with
  | zero =>
    by_cases noBits : res = 0#7
    · subst noBits
      cases timeout
    · have someBits := Nat.one_le_iff_ne_zero.1 (one_le_toNat noBits)
      cases packet : sendPacket p tbl (res.setWidth 8) i f with | mk sent h
      cases sent with
      | true =>
        rw [sendChunks_residual_sent noBits packet] at timeout
        cases timeout
      | false =>
        rw [sendChunks_residual_timedOut noBits packet] at timeout
        cases timeout
        obtain ⟨reads, trace, onlyReads⟩ := sendPacket_timedOut_events packet
        have lengths : chunkLengths 0 res.toNat = [res.toNat] := if_neg someBits
        rw [lengths]
        exact ⟨0, [], reads, Nat.one_pos, trace, .none, onlyReads⟩
  | succ n ih =>
    rw [chunkLengths_succ, List.length_cons]
    cases packet : sendPacket p tbl 128#8 i f with | mk sent h
    cases sent with
    | false =>
      rw [sendChunks_full_timedOut n packet] at timeout
      cases timeout
      obtain ⟨reads, trace, onlyReads⟩ := sendPacket_timedOut_events packet
      exact ⟨0, [], reads, Nat.succ_pos _, trace, .none, onlyReads⟩
    | true =>
      rw [sendChunks_full_sent n packet] at timeout
      obtain ⟨reads, v, payload, trace, chunk⟩ := sendPacket_events (by decide) (by decide) packet
      obtain ⟨k, ev, lastReads, fewer, trace', chunks, onlyReads⟩ := ih timeout
      rw [trace, List.append_assoc, ← List.append_assoc _ ev] at trace'
      exact ⟨k + 1, _, lastReads, Nat.succ_lt_succ fewer, trace', .chunk chunk chunks, onlyReads⟩

end Algorithm

/-! ### What a reader finds -/

/-- Status reads leave the packets as they are. -/
theorem packets_foldl_next_reads {reads : List BusEvent} (onlyReads : ∀ e ∈ reads, e.isRead = true) (p : PacketScan) :
    (reads.foldl PacketScan.next p).packets = p.packets := by
  cases reads with
  | nil => rfl
  | cons e es =>
    rw [foldl_next_reads onlyReads (Nat.succ_pos _)]
    rfl

theorem length_tableBits (tbl : Nat → Word) (n : Nat) : (tableBits tbl n).length = n := by
  rw [tableBits, List.length_map, List.length_range]

/-- A packet whose payload holds its bits has as many chain bits. -/
theorem Packet.length_chainBits {q : Packet} (enough : q.bits ≤ 8 * q.payload.length) :
    q.chainBits.length = q.bits := by
  rw [Packet.chainBits, List.length_take, length_flatMap_byteBits, Nat.min_eq_left enough]

/-- Packets of 128 bits with all their bytes. -/
theorem length_chainBits_of_full {t : List BusEvent}
    (full : ∀ q ∈ packets t, q.bits = 128 ∧ q.payload.length = 16) :
    (chainBits t).length = 128 * (packets t).length := by
  have lengths : (packets t).map (fun q => q.chainBits.length) = (packets t).map fun _ => 128 :=
    List.map_congr_left fun q mem => by
      obtain ⟨bits, bytes⟩ := full q mem
      rw [Packet.length_chainBits (by rw [bits, bytes]), bits]
  rw [chainBits, List.length_flatMap, lengths, List.map_const', List.sum_replicate, smul_eq_mul, Nat.mul_comm]

/-- R78: the two phases whose operation can end an idle check. -/
theorem phase_of_check_or_poll {ph : Phase} {i : Instr} (decoded : decode (.seq ph.code) = .ok i)
    (isCheck : i = .check ∨ i = .poll) : ph = .monStart ∨ ph = .monRead := by
  cases ph <;> cases decoded
  case monStart => exact .inl rfl
  case monRead => exact .inr rfl
  all_goals obtain other | other := isCheck <;> cases other

end Sys2Proof.Machine

namespace Sys2Proof.Safety

open Sys2Proof.Machine

/-! ### The last step of a command -/

theorem leadsBusy_succ_last {k : Nat} {s t : State} (h : LeadsBusy (k + 1) s t) :
    ∃ u, LeadsBusy k s u ∧ u.phase ≠ .ready ∧ step u = .next t := by
  obtain ⟨run, busy⟩ := h
  obtain ⟨u, before, last⟩ := leads_succ_last run
  exact ⟨u, ⟨before, fun j v inside => busy j v (Nat.lt_succ_of_lt inside)⟩, busy k u (Nat.lt_succ_self k) before, last⟩

section Command

variable {tbl : Nat → Word} {r : CmdRecord} {base : List BusEvent} {s t u : State}

/-- A `PROGRAM_CHAIN` ends with a step of its run, not with its acceptance. -/
theorem last_step_of_commandEnds (offered : Offered r s) (op : r.op = 1#1)
    (wellFormed : (decodeCmd r).wellFormed = true) (table : ∀ i w, r.table[i]? = some w → tbl i = w)
    (ends : CommandEnds s t) : ∃ u, RunOf tbl r s.trace u ∧ u.phase ≠ .ready ∧ step u = .next t := by
  obtain ⟨k, ends⟩ := ends
  obtain ⟨j, rfl⟩ := Nat.exists_eq_add_of_le' ends.1
  obtain ⟨v, accepts, run⟩ := leadsBusy_of_endsAfter ends
  obtain ⟨-, -, ready, -⟩ := ends
  have started := runOf_of_accepted offered op wellFormed table accepts
  cases j with
  | zero =>
    obtain ⟨own, wasReady, rest, offers⟩ := offered
    rw [step_of_programChain_offer own wasReady offers op] at accepts
    cases accepts
    obtain ⟨same, -⟩ := run
    rw [← leads_zero.1 same] at ready
    cases ready
  | succ j =>
    obtain ⟨u, before, busy, last⟩ := leadsBusy_succ_last run
    exact ⟨u, runOf_of_leadsBusy started before, busy, last⟩

/-- When a step of the run times out, a first part of the table has been sent: that was so before the check, and its
status reads add nothing. -/
theorem chainBits_of_timeout (run : RunOf tbl r base u) (busy : u.phase ≠ .ready) (last : step u = .next t)
    (timeout : t.result = .engineTimeout) :
    ∃ ev n, t.trace = base ++ ev ∧ chainBits ev = tableBits tbl n := by
  obtain ⟨i, decoded, ran⟩ := exec_of_step_busy run.undisturbed busy last
  obtain ⟨noResult, -⟩ := run.latch
  have raised : u.result ≠ .engineTimeout := by rw [noResult busy]; decide
  obtain ⟨named, -⟩ := errorsAreRaisedOnlyWhereNamed i u t ran
  obtain ⟨isCheck, -, -, -, -, -, trace⟩ := named raised timeout
  obtain ⟨ev, events, sent⟩ := run.sent
  have bits : chainBits ev = tableBits tbl (32 * u.idx.toNat) := by
    obtain start | read := phase_of_check_or_poll decoded isCheck
    · exact (sent_monStart start).1 sent
    · exact (sent_monRead read).1 sent
  obtain same | ⟨v, read⟩ := trace
  · exact ⟨ev, _, same.trans events, bits⟩
  · exact ⟨ev ++ [⟨.read, 0x00#8, v⟩], _, by rw [read, events, List.append_assoc], (chainBits_read ..).trans bits⟩

/-! ### A command that times out -/

/-- A command that does not end `INVALID_INPUT` ends as the chunks of the algorithm do, with `EN` on its chain. -/
theorem sendChunks_of_commandEnds (offered : Offered r s) (op : r.op = 1#1)
    (wellFormed : (decodeCmd r).wellFormed = true) (table : ∀ i w, r.table[i]? = some w → tbl i = w)
    (ends : CommandEnds s t) (valid : t.result ≠ .invalidInput) :
    (t.result, t.flow) =
        sendChunks s.params tbl (fullChunksOf r.lengthInBits).toNat (residualOf r.lengthInBits) 0
          (s.flow.write .en (BitVec.ofNat 32 (2 ^ r.chainId.toNat))) ∧
      t.en = BitVec.ofNat 32 (2 ^ r.chainId.toNat) := by
  obtain ⟨t', ends', answer, -, en⟩ := programChainAgreesWithTheAlgorithm s r tbl offered op wellFormed table
  obtain rfl := commandEnds_unique ends ends'
  by_cases invalid : 3 < r.chainId.toNat ∨ r.tableLen.toNat < (r.lengthInBits.toNat + 31) / 32
  · rw [programChain_of_invalid invalid] at answer
    exact absurd (congrArg Prod.fst answer) valid
  · rw [if_neg invalid] at en
    obtain ⟨chain, fits⟩ := not_or.1 invalid
    rw [programChain_of_valid (Nat.not_lt.1 chain) (Nat.not_lt.1 fits)] at answer
    exact ⟨answer, en⟩

/-- R137: the packets of a command that times out are full chunks, fewer than the command has chunks. -/
theorem packets_of_timeout (offered : Offered r s) (op : r.op = 1#1) (wellFormed : (decodeCmd r).wellFormed = true)
    (table : ∀ i w, r.table[i]? = some w → tbl i = w) (ends : CommandEnds s t) (timeout : t.result = .engineTimeout) :
    (packets (newEvents s t)).length < chunkCount r.lengthInBits.toNat ∧
      ∀ q ∈ packets (newEvents s t), q.bits = 128 ∧ q.payload.length = 16 := by
  obtain ⟨answer, -⟩ := sendChunks_of_commandEnds offered op wellFormed table ends (by rw [timeout]; decide)
  rw [timeout] at answer
  obtain ⟨k, ev, reads, fewer, trace, chunks, onlyReads⟩ := sendChunks_timedOut_events _ answer.symm
  rw [fullChunksOf_toNat, residualOf_toNat, chunkLengths_length] at fewer
  have events : newEvents s t =
      ⟨.write, Reg.en.offset, BitVec.ofNat 32 (2 ^ r.chainId.toNat)⟩ :: (ev ++ reads) :=
    (congrArg (List.drop s.trace.length) (trace.trans (List.append_assoc ..))).trans List.drop_left
  obtain ⟨ps, scanned, bits, bytes⟩ := packets_of_chunkEvents chunks ⟨[], false, none⟩
  have all : packets (newEvents s t) = ps := by
    rw [events, packets_eq_scan, scan, List.foldl_cons, List.foldl_append, packets_foldl_next_reads onlyReads]
    exact scanned
  have count : ps.length = k := by simpa using congrArg List.length bits
  rw [all, count]
  refine ⟨fewer, fun q mem => ?_⟩
  have whole : q.bits = 128 := List.eq_of_mem_replicate (bits ▸ List.mem_map_of_mem mem)
  exact ⟨whole, by rw [bytes q mem, whole]; rfl⟩

end Command

/-- Settles O56: the packets are full chunks, the run has sent a first part of the table, and the lengths of the packets
say how long it is. -/
theorem timeoutIsPreciseAtAChunkBoundary : Obligations.TimeoutIsPreciseAtAChunkBoundary := by
  intro s t r tbl offered op wellFormed table ends timeout
  obtain ⟨fewer, full⟩ := packets_of_timeout offered op wellFormed table ends timeout
  obtain ⟨u, run, busy, last⟩ := last_step_of_commandEnds offered op wellFormed table ends
  obtain ⟨ev, n, trace, bits⟩ := chainBits_of_timeout run busy last timeout
  have events : newEvents s t = ev := by rw [newEvents, trace, List.drop_left]
  rw [← events] at bits
  have length := length_chainBits_of_full full
  rw [bits, length_tableBits] at length
  obtain ⟨-, en⟩ := sendChunks_of_commandEnds offered op wellFormed table ends (by rw [timeout]; decide)
  exact ⟨fewer, full, length ▸ bits, en⟩

end Sys2Proof.Safety
end

section
/-! Proofs about a reset request (70_reset_and_hazards.md R240, R241) and about a zero budget (R257). A
command with bits to send checks for an idle engine before its first chunk, and without a budget that check ends it. -/

namespace Sys2Proof.Machine

/-- R241: a reset request is taken whatever the block does. -/
theorem step_of_resetRequest {s : State} (requested : s.resetRequest = true) : step s = .next s.blockReset :=
  if_pos requested

/-- Settles O41: the step answers the state after the reset, whose fields are those of reset or as before. -/
theorem resetRequestAbandonsTheCommand : Obligations.ResetRequestAbandonsTheCommand := fun s requested =>
  ⟨s.blockReset, step_of_resetRequest requested, rfl, rfl, rfl, rfl, rfl, rfl, rfl, rfl, rfl, rfl, rfl, fun _ => rfl⟩

end Sys2Proof.Machine

namespace Sys2Proof.Safety

open Sys2Proof.Machine

section ZeroBudget

variable {s : State}

/-- R135: with bits left a chunk is started, full or residual; its length and what is then left aside, the block stays
as it is. -/
theorem nextChunk_leads_monStart (own : Undisturbed s) (phase : s.phase = .nextChunk) (bits : 0 < bitsLeft s) :
    ∃ curL fullLeft res,
      LeadsBusy 1 s { s with curL := curL, fullLeft := fullLeft, res := res, phase := .monStart } := by
  have busy := busy_of_phase phase Phase.noConfusion
  have chunk := step_in_phase own phase Phase.noConfusion decode_nextChunk
  obtain noFull | full := Nat.eq_zero_or_pos s.fullLeft.toNat
  · have residual : 0 < s.res.toNat := by
      rw [bitsLeft, noFull] at bits
      omega
    exact ⟨_, _, _, leadsBusy_one busy (chunk.trans (exec_chunk_of_residual noFull residual))⟩
  · exact ⟨_, _, _, leadsBusy_one busy (chunk.trans (exec_chunk_of_full full))⟩

/-- R115: without a budget the check ends a `PROGRAM_CHAIN` in one step, before any status read. -/
theorem monStart_times_out_at_once (own : Undisturbed s) (phase : s.phase = .monStart) (op : s.op ≠ 0#1)
    (noBudget : s.maxi = 0#32) :
    LeadsBusy 1 s
      { s with poll := .timedOut, verdict := .active, result := .engineTimeout, phase := .ready } := by
  refine leadsBusy_one (busy_of_phase phase Phase.noConfusion) ?_
  rw [step_in_phase own phase Phase.noConfusion decode_monStart, exec_check_of_no_budget noBudget,
    endOfCheck_timedOut op]

/-- R133: right after `PLAN` every bit of the command is left. -/
theorem bitsLeft_planned (s : State) : bitsLeft s.planned = s.len.toNat := by
  change 128 * (fullChunksOf s.len).toNat + (residualOf s.len).toNat = s.len.toNat
  rw [fullChunksOf_toNat, residualOf_toNat, Nat.div_add_mod]

end ZeroBudget

/-- Settles O59: the acceptance, `VALIDATE`, `SELECT` and `PLAN`; then the first chunk is started and its check ends the
command. -/
theorem zeroBudgetTimesOutAfterSelect : Obligations.ZeroBudgetTimesOutAfterSelect := by
  intro s r ⟨own, ready, rest, offers⟩ op noBudget chain fits someBits
  let accepted := s.afterProgramChain r rest
  have accepts : step s = .next accepted := step_of_programChain_offer own ready offers op
  have plans : LeadsBusy 3 accepted accepted.planned := validate_leads_planned own rfl chain fits
  have bits : 0 < bitsLeft accepted.planned := (bitsLeft_planned accepted).symm ▸ someBits
  obtain ⟨curL, fullLeft, res, starts⟩ := nextChunk_leads_monStart (s := accepted.planned) own rfl bits
  have timesOut := monStart_times_out_at_once
    (s := { accepted.planned with curL := curL, fullLeft := fullLeft, res := res, phase := .monStart })
    own rfl (by decide : (1#1 : BitVec 1) ≠ 0#1) noBudget
  exact ⟨_, endsAfter_of_leadsBusy accepts (leadsBusy_trans plans (leadsBusy_trans starts timesOut)) rfl, rfl, rfl, rfl⟩

end Sys2Proof.Safety
end
